-- ==== Sys2Proof/Word.lean ====
section
/-! DEFINITION. Bytes, the three operand widths (R11) and the two sizes (operand, address, code, stack) of the core. -/

namespace Sys2Proof

/-- One byte. -/
abbrev Byte := BitVec 8

/-- An operand width: 8, 16 or 32 bits (R11, R241). -/
inductive Width where
  | w8
  | w16
  | w32
deriving DecidableEq, Repr

/-- The number of bits of a width. -/
abbrev Width.bits : Width → Nat
  | .w8 => 8
  | .w16 => 16
  | .w32 => 32

/-- The number of bytes of a width. -/
abbrev Width.bytes : Width → Nat
  | .w8 => 1
  | .w16 => 2
  | .w32 => 4

/-- A 16-or-32 size: operand size OS, address size AS, code size CSZ, stack-pointer width SW (R18). -/
inductive Size where
  | s16
  | s32
deriving DecidableEq, Repr

/-- The operand width that a size names. -/
abbrev Size.width : Size → Width
  | .s16 => .w16
  | .s32 => .w32

end Sys2Proof
end

