-- ==== Sys2Proof/Config.lean ====
section
/-! DEFINITION. The free values: constants with no body, so that no proof can know them. `State.draws` numbers their uses. -/

namespace Sys2Proof

/-- The six status flags that an instruction can leave undefined (D27). -/
inductive StatusFlag where
  | cf
  | pf
  | af
  | zf
  | sf
  | ofl
deriving DecidableEq, Repr

/-- The value of a status flag that the spec leaves to `draw()` (D27), for draw number n. Log 4. -/
opaque Config.freeFlag : Nat → StatusFlag → Bool

/-- The value of a destination that the spec leaves to `draw()` (R480, R494, R660), for draw number n. Log 4. -/
opaque Config.freeWord : Nat → BitVec 32

/-- What a device answers to `readFn(port, size)` (R171: not determined by the core), for draw number n: of the draw, the device,
the port and the size. Log 3. -/
opaque Config.deviceRead : Nat → Nat → BitVec 16 → Width → BitVec 32

end Sys2Proof
end

