-- ==== Sys2Proof/Syntax.lean ====
section
/-! DEFINITION. The instructions as data: operands resolved as R240 describes them, and one constructor of `Instr` for each
instruction of spec/opcode_table.json. -/

namespace Sys2Proof

/-- A general register by its encoding index 0 to 7 (R50). At width 8 the indices 4 to 7 name AH, CH, DH, BH (R54). -/
inductive Reg where
  | eax
  | ecx
  | edx
  | ebx
  | esp
  | ebp
  | esi
  | edi
deriving DecidableEq, Repr

/-- A segment register, in the order of its encoding index 0 to 5 (R71). -/
inductive SegReg where
  | es
  | cs
  | ss
  | ds
  | fs
  | gs
deriving DecidableEq, Repr

/-- A control register, index 0 to 4 (R80, R81). -/
inductive CReg where
  | cr0
  | cr1
  | cr2
  | cr3
  | cr4
deriving DecidableEq, Repr

/-- The base and index of a 16-bit effective address, by rm 0 to 7 (R222); `abs` is rm 6 with mod 0. -/
inductive Base16 where
  | bxSi
  | bxDi
  | bpSi
  | bpDi
  | si
  | di
  | bp
  | bx
  | abs
deriving DecidableEq, Repr

/-- The displacement as the instruction holds it: none, one sign-extended byte, or n bits (R222, R223, R225). -/
inductive Disp (n : Nat) where
  | none
  | byte (d : Byte)
  | full (d : BitVec n)
deriving DecidableEq, Repr

/-- The scale of an index register: 1, 2, 4 or 8 (R224). -/
inductive Scale where
  | x1
  | x2
  | x4
  | x8
deriving DecidableEq, Repr

/-- How an effective address is computed, 16-bit (R222) or 32-bit (R223, R224). -/
inductive Ea where
  | a16 (base : Base16) (disp : Disp 16)
  | a32 (base : Option Reg) (index : Option (Reg × Scale)) (disp : Disp 32)
deriving DecidableEq, Repr

/-- A memory operand: the segment after any override, and the effective address (R240). -/
structure MemRef where
  seg : SegReg
  ea : Ea
deriving DecidableEq, Repr

/-- An E operand: ModRM r/m, a register or memory (R230). -/
inductive Rm where
  | reg (r : Reg)
  | mem (m : MemRef)
deriving DecidableEq, Repr

/-- A source operand: register, memory or immediate (R240). The immediate is already extended or zero-extended to its width. -/
inductive Operand where
  | rm (x : Rm)
  | imm (v : BitVec 32)
deriving DecidableEq, Repr

/-- A direct memory offset: seg:moffs with an address-size offset (R236). -/
structure Moffs where
  seg : SegReg
  size : Size
  off : BitVec 32
deriving DecidableEq, Repr

/-- The count operand of a shift, rotate or double shift (R253, R480): Ib, the constant 1, or CL. -/
inductive ShiftCount where
  | imm (n : Byte)
  | one
  | cl
deriving DecidableEq, Repr

/-- The bit offset operand of BT, BTS, BTR, BTC (R489). -/
inductive BitOff where
  | reg (r : Reg)
  | imm (n : Byte)
deriving DecidableEq, Repr

/-- A relative displacement: Jb, or Jz already sign-extended to 32 bits (R234). -/
inductive Rel where
  | short (d : Byte)
  | near (d : BitVec 32)
deriving DecidableEq, Repr

/-- How often CMPS and SCAS run: once, or repeated while equal (F3) or while not equal (F2) (R215). -/
inductive CmpRep where
  | once
  | repe
  | repne
deriving DecidableEq, Repr

/-- A condition code 0 to F (R245). -/
inductive Cond where
  | o
  | no
  | b
  | ae
  | e
  | ne
  | be
  | a
  | s
  | ns
  | p
  | np
  | l
  | ge
  | le
  | g
deriving DecidableEq, Repr

/-- An invalid encoding, by the bytes that decide it (R260 to R262). -/
inductive BadCode where
  | one (op : Byte)
  | two (op2 : Byte)
  | oneModRM (op modrm : Byte)
  | twoModRM (op2 modrm : Byte)
deriving DecidableEq, Repr

/-- A repeat prefix byte: F2 or F3 (R215). -/
inductive RepPrefix where
  | f2
  | f3
deriving DecidableEq, Repr

/-- The prefix state of the instruction being decoded (R99, R211). -/
structure Prefixes where
  seg : Option SegReg
  opSize : Bool
  addrSize : Bool
  rep : Option RepPrefix
  lock : Bool
deriving DecidableEq, Repr

/-- The prefix state at the start of every cycle (R211). -/
abbrev Prefixes.empty : Prefixes := ⟨none, false, false, none, false⟩

/-- The instructions. `w` is the operand width, `os` the operand size and `as` the address size, all resolved at decode. -/
inductive Instr where
  -- prefix bytes (R210 to R216)
  | prefixEs
  | prefixCs
  | prefixSs
  | prefixDs
  | prefixFs
  | prefixGs
  | prefixOpSize
  | prefixAddrSize
  | prefixLock
  | prefixRepne
  | prefixRep
  -- two-operand arithmetic and logic (R410 to R414, R460 to R462, R464)
  | add (w : Width) (dst : Rm) (src : Operand)
  | or (w : Width) (dst : Rm) (src : Operand)
  | adc (w : Width) (dst : Rm) (src : Operand)
  | sbb (w : Width) (dst : Rm) (src : Operand)
  | and (w : Width) (dst : Rm) (src : Operand)
  | sub (w : Width) (dst : Rm) (src : Operand)
  | xor (w : Width) (dst : Rm) (src : Operand)
  | cmp (w : Width) (dst : Rm) (src : Operand)
  | test (w : Width) (dst : Rm) (src : Operand)
  -- one-operand arithmetic and logic (R415 to R417, R463)
  | inc (w : Width) (dst : Rm)
  | dec (w : Width) (dst : Rm)
  | neg (w : Width) (dst : Rm)
  | not (w : Width) (dst : Rm)
  -- multiply and divide (R420 to R425)
  | mul (w : Width) (src : Rm)
  | imul (w : Width) (src : Rm)
  | imulReg (os : Size) (dst : Reg) (src : Rm)
  | imulImm (os : Size) (dst : Reg) (src : Rm) (imm : BitVec 32)
  | div (w : Width) (src : Rm)
  | idiv (w : Width) (src : Rm)
  -- decimal adjust (R440 to R445)
  | daa
  | das
  | aaa
  | aas
  | aam (base : Byte)
  | aad (base : Byte)
  -- shifts and rotates (R470 to R481)
  | rol (w : Width) (dst : Rm) (count : ShiftCount)
  | ror (w : Width) (dst : Rm) (count : ShiftCount)
  | rcl (w : Width) (dst : Rm) (count : ShiftCount)
  | rcr (w : Width) (dst : Rm) (count : ShiftCount)
  | shl (w : Width) (dst : Rm) (count : ShiftCount)
  | shr (w : Width) (dst : Rm) (count : ShiftCount)
  | sar (w : Width) (dst : Rm) (count : ShiftCount)
  | shld (os : Size) (dst : Rm) (src : Reg) (count : ShiftCount)
  | shrd (os : Size) (dst : Rm) (src : Reg) (count : ShiftCount)
  -- bit test and scan (R489 to R495)
  | bt (os : Size) (dst : Rm) (off : BitOff)
  | bts (os : Size) (dst : Rm) (off : BitOff)
  | btr (os : Size) (dst : Rm) (off : BitOff)
  | btc (os : Size) (dst : Rm) (off : BitOff)
  | bsf (os : Size) (dst : Reg) (src : Rm)
  | bsr (os : Size) (dst : Reg) (src : Rm)
  -- moves (R300 to R309, R650, R651)
  | mov (w : Width) (dst : Rm) (src : Operand)
  | movAccMoffs (w : Width) (src : Moffs)
  | movMoffsAcc (w : Width) (dst : Moffs)
  | movFromSeg (os : Size) (dst : Rm) (src : SegReg)
  | movToSeg (dst : SegReg) (src : Rm)
  | movFromCr (dst : Reg) (src : CReg)
  | movToCr (dst : CReg) (src : Reg)
  | xchg (w : Width) (op1 : Rm) (op2 : Reg)
  | lea (os : Size) (dst : Reg) (src : Ea)
  | movzxByte (os : Size) (dst : Reg) (src : Rm)
  | movzxWord (os : Size) (dst : Reg) (src : Rm)
  | movsxByte (os : Size) (dst : Reg) (src : Rm)
  | movsxWord (os : Size) (dst : Reg) (src : Rm)
  -- far-pointer loads (R308, R316 to R320)
  | lds (os : Size) (dst : Reg) (src : MemRef)
  | les (os : Size) (dst : Reg) (src : MemRef)
  | lss (os : Size) (dst : Reg) (src : MemRef)
  | lfs (os : Size) (dst : Reg) (src : MemRef)
  | lgs (os : Size) (dst : Reg) (src : MemRef)
  -- conversions and accumulator moves (R310 to R314)
  | cbw (os : Size)
  | cwd (os : Size)
  | lahf
  | sahf
  | xlat (as : Size) (seg : SegReg)
  -- SETcc (R315)
  | seto (dst : Rm)
  | setno (dst : Rm)
  | setb (dst : Rm)
  | setae (dst : Rm)
  | sete (dst : Rm)
  | setne (dst : Rm)
  | setbe (dst : Rm)
  | seta (dst : Rm)
  | sets (dst : Rm)
  | setns (dst : Rm)
  | setp (dst : Rm)
  | setnp (dst : Rm)
  | setl (dst : Rm)
  | setge (dst : Rm)
  | setle (dst : Rm)
  | setg (dst : Rm)
  -- stack (R371 to R386)
  | push (os : Size) (src : Rm)
  | pushImm (os : Size) (imm : BitVec 32)
  | pushEs (os : Size)
  | pushCs (os : Size)
  | pushSs (os : Size)
  | pushDs (os : Size)
  | pushFs (os : Size)
  | pushGs (os : Size)
  | pop (os : Size) (dst : Reg)
  | popRm (os : Size) (dst : Rm)
  | popEs (os : Size)
  | popSs (os : Size)
  | popDs (os : Size)
  | popFs (os : Size)
  | popGs (os : Size)
  | pusha (os : Size)
  | popa (os : Size)
  | pushf (os : Size)
  | popf
  | popfd
  | enter (os : Size) (alloc : BitVec 16) (level : Byte)
  | leave (os : Size)
  -- conditional branches and loops (R521 to R524)
  | jo (os : Size) (rel : Rel)
  | jno (os : Size) (rel : Rel)
  | jb (os : Size) (rel : Rel)
  | jae (os : Size) (rel : Rel)
  | je (os : Size) (rel : Rel)
  | jne (os : Size) (rel : Rel)
  | jbe (os : Size) (rel : Rel)
  | ja (os : Size) (rel : Rel)
  | js (os : Size) (rel : Rel)
  | jns (os : Size) (rel : Rel)
  | jp (os : Size) (rel : Rel)
  | jnp (os : Size) (rel : Rel)
  | jl (os : Size) (rel : Rel)
  | jge (os : Size) (rel : Rel)
  | jle (os : Size) (rel : Rel)
  | jg (os : Size) (rel : Rel)
  | jcxz (os as : Size) (rel : Byte)
  | loop (os as : Size) (rel : Byte)
  | loope (os as : Size) (rel : Byte)
  | loopne (os as : Size) (rel : Byte)
  -- jumps, calls, returns (R525 to R535)
  | jmpRel (os : Size) (rel : Rel)
  | jmpInd (os : Size) (src : Rm)
  | jmpFar (os : Size) (off : BitVec 32) (sel : BitVec 16)
  | jmpFarInd (os : Size) (src : MemRef)
  | callRel (os : Size) (rel : BitVec 32)
  | callInd (os : Size) (src : Rm)
  | callFar (os : Size) (off : BitVec 32) (sel : BitVec 16)
  | callFarInd (os : Size) (src : MemRef)
  | ret (os : Size)
  | retImm (os : Size) (imm : BitVec 16)
  | retf (os : Size)
  | retfImm (os : Size) (imm : BitVec 16)
  -- software interrupts and interrupt return (R540 to R560)
  | int (vector : Byte)
  | int3
  | into
  | iret (os : Size)
  -- strings (R580 to R591)
  | movsb (as : Size) (seg : SegReg) (rep : Bool)
  | movsw (os as : Size) (seg : SegReg) (rep : Bool)
  | cmpsb (as : Size) (seg : SegReg) (rep : CmpRep)
  | cmpsw (os as : Size) (seg : SegReg) (rep : CmpRep)
  | stosb (as : Size) (rep : Bool)
  | stosw (os as : Size) (rep : Bool)
  | lodsb (as : Size) (seg : SegReg) (rep : Bool)
  | lodsw (os as : Size) (seg : SegReg) (rep : Bool)
  | scasb (as : Size) (rep : CmpRep)
  | scasw (os as : Size) (rep : CmpRep)
  | insb (as : Size) (rep : Bool)
  | insw (os as : Size) (rep : Bool)
  | outsb (as : Size) (seg : SegReg) (rep : Bool)
  | outsw (os as : Size) (seg : SegReg) (rep : Bool)
  -- port I/O (R620 to R623)
  | inImm (w : Width) (port : Byte)
  | inDx (w : Width)
  | outImm (w : Width) (port : Byte)
  | outDx (w : Width)
  -- flag control (R630 to R636)
  | clc
  | stc
  | cmc
  | cli
  | sti
  | cld
  | std
  -- no-operations and halt (R637, R638, R640)
  | nop
  | wait
  | hlt
  -- system registers (R655 to R661)
  | lgdt (os : Size) (src : MemRef)
  | lidt (os : Size) (src : MemRef)
  | sgdt (os : Size) (dst : MemRef)
  | sidt (os : Size) (dst : MemRef)
  | lmsw (src : Rm)
  | smsw (os : Size) (dst : Rm)
  | clts
  -- invalid encodings (R260 to R262)
  | invalid (code : BadCode)
  | x87Escape (op : Byte)
deriving DecidableEq, Repr

end Sys2Proof
end

