-- ==== Sys2Proof/Decode.lean ====
section
/-! DEFINITION. The decoder, from instruction bytes to `Instr` (R201, R210 to R267), and after it the encoder. One call of
`decode` reads one unit: a prefix byte, or an opcode with all its operand bytes. -/

namespace Sys2Proof

/-! ## Numbers of registers, conditions and fields -/

/-- The general register with an index (R50, R231). -/
def Reg.ofBits (b : BitVec 3) : Reg :=
  match b.toNat with
  | 0 => .eax
  | 1 => .ecx
  | 2 => .edx
  | 3 => .ebx
  | 4 => .esp
  | 5 => .ebp
  | 6 => .esi
  | _ => .edi

/-- The index of a general register (R50). -/
def Reg.toBits : Reg → BitVec 3
  | .eax => 0
  | .ecx => 1
  | .edx => 2
  | .ebx => 3
  | .esp => 4
  | .ebp => 5
  | .esi => 6
  | .edi => 7

/-- The segment register with an index; 6 and 7 name none (R71, R232). -/
def SegReg.ofBits (b : BitVec 3) : Option SegReg :=
  match b.toNat with
  | 0 => some .es
  | 1 => some .cs
  | 2 => some .ss
  | 3 => some .ds
  | 4 => some .fs
  | 5 => some .gs
  | _ => none

/-- The index of a segment register (R71). -/
def SegReg.toBits : SegReg → BitVec 3
  | .es => 0
  | .cs => 1
  | .ss => 2
  | .ds => 3
  | .fs => 4
  | .gs => 5

/-- The control register with an index; 5 to 7 name none (R239, R261). -/
def CReg.ofBits (b : BitVec 3) : Option CReg :=
  match b.toNat with
  | 0 => some .cr0
  | 1 => some .cr1
  | 2 => some .cr2
  | 3 => some .cr3
  | 4 => some .cr4
  | _ => none

/-- The index of a control register. -/
def CReg.toBits : CReg → BitVec 3
  | .cr0 => 0
  | .cr1 => 1
  | .cr2 => 2
  | .cr3 => 3
  | .cr4 => 4

/-- The condition with a code 0 to F (R245). -/
def Cond.ofCode (n : Nat) : Cond :=
  match n with
  | 0 => .o
  | 1 => .no
  | 2 => .b
  | 3 => .ae
  | 4 => .e
  | 5 => .ne
  | 6 => .be
  | 7 => .a
  | 8 => .s
  | 9 => .ns
  | 10 => .p
  | 11 => .np
  | 12 => .l
  | 13 => .ge
  | 14 => .le
  | _ => .g

/-- The code of a condition (R245). -/
def Cond.code : Cond → Nat
  | .o => 0
  | .no => 1
  | .b => 2
  | .ae => 3
  | .e => 4
  | .ne => 5
  | .be => 6
  | .a => 7
  | .s => 8
  | .ns => 9
  | .p => 10
  | .np => 11
  | .l => 12
  | .ge => 13
  | .le => 14
  | .g => 15

/-- The scale with a two-bit code (R224). -/
def Scale.ofBits (b : BitVec 2) : Scale :=
  match b.toNat with
  | 0 => .x1
  | 1 => .x2
  | 2 => .x4
  | _ => .x8

/-- The two-bit code of a scale (R224). -/
def Scale.toBits : Scale → BitVec 2
  | .x1 => 0
  | .x2 => 1
  | .x4 => 2
  | .x8 => 3

/-- The base and index that rm names in 16-bit addressing with mod 1 or 2 (R222). -/
def Base16.ofBits (b : BitVec 3) : Base16 :=
  match b.toNat with
  | 0 => .bxSi
  | 1 => .bxDi
  | 2 => .bpSi
  | 3 => .bpDi
  | 4 => .si
  | 5 => .di
  | 6 => .bp
  | _ => .bx

/-- The rm field of a 16-bit address (R222). -/
def Base16.toBits : Base16 → BitVec 3
  | .bxSi => 0
  | .bxDi => 1
  | .bpSi => 2
  | .bpDi => 3
  | .si => 4
  | .di => 5
  | .bp => 6
  | .bx => 7
  | .abs => 6

/-- Bits 7:6 of a ModRM or SIB byte: mod, or the scale (R221, R224). -/
def hi2 (m : Byte) : BitVec 2 := m.extractLsb' 6 2

/-- Bits 5:3 of a ModRM or SIB byte: reg, or the index (R221, R224). -/
def mid3 (m : Byte) : BitVec 3 := m.extractLsb' 3 3

/-- Bits 2:0 of a ModRM or SIB byte: rm, or the base (R221, R224). -/
def low3 (m : Byte) : BitVec 3 := m.extractLsb' 0 3

/-- A ModRM or SIB byte from its three fields (R221, R224). -/
def mkFields (a : BitVec 2) (b c : BitVec 3) : Byte := a ++ b ++ c

/-- The other size (R213, R214: 48 - D). -/
def Size.flip : Size → Size
  | .s16 => .s32
  | .s32 => .s16

/-- The operand size OS in code of size csz (R213). -/
def Prefixes.os (p : Prefixes) (csz : Size) : Size := if p.opSize then csz.flip else csz

/-- The address size AS in code of size csz (R214). -/
def Prefixes.as (p : Prefixes) (csz : Size) : Size := if p.addrSize then csz.flip else csz

/-- The segment of an operand whose default is d (R141, R212). -/
def Prefixes.segOr (p : Prefixes) (d : SegReg) : SegReg := p.seg.getD d

/-- Whether MOVS, STOS, LODS, INS and OUTS repeat: F2 and F3 both mean REP (R215). -/
def Prefixes.isRep (p : Prefixes) : Bool := p.rep.isSome

/-- How CMPS and SCAS repeat (R215). -/
def Prefixes.cmpRep (p : Prefixes) : CmpRep :=
  match p.rep with
  | none => .once
  | some .f3 => .repe
  | some .f2 => .repne

/-- The default segment of an effective address: SS for a BP, EBP or ESP base, else DS (R222, R223, R226). -/
def Ea.defaultSeg : Ea → SegReg
  | .a16 .bpSi _ | .a16 .bpDi _ | .a16 .bp _ => .ss
  | .a16 _ _ => .ds
  | .a32 (some .esp) _ _ | .a32 (some .ebp) _ _ => .ss
  | .a32 _ _ _ => .ds

/-- The address size of an effective address. -/
def Ea.size : Ea → Size
  | .a16 _ _ => .s16
  | .a32 _ _ _ => .s32

/-! ## Reading bytes: each reader answers the value and the bytes left, or nothing where the bytes end too soon -/

/-- One byte. -/
def take8 : List Byte → Option (Byte × List Byte)
  | a :: r => some (a, r)
  | [] => none

/-- Two bytes, least significant first (R122, R233). -/
def take16 : List Byte → Option (BitVec 16 × List Byte)
  | a :: b :: r => some (b ++ a, r)
  | _ => none

/-- Four bytes, least significant first (R122, R233). -/
def take32 : List Byte → Option (BitVec 32 × List Byte)
  | a :: b :: c :: d :: r => some (d ++ c ++ b ++ a, r)
  | _ => none

/-- An offset of a size, zero-extended (R235, R236). -/
def takeOff : Size → List Byte → Option (BitVec 32 × List Byte)
  | .s16, bs => (take16 bs).map fun (v, r) => (v.setWidth 32, r)
  | .s32, bs => take32 bs

/-- A relative displacement Jz, sign-extended (R234). -/
def takeJz : Size → List Byte → Option (BitVec 32 × List Byte)
  | .s16, bs => (take16 bs).map fun (v, r) => (v.signExtend 32, r)
  | .s32, bs => take32 bs

/-- An immediate of a width, zero-extended: Ib, or Iz (R233). -/
def takeImm : Width → List Byte → Option (BitVec 32 × List Byte)
  | .w8, bs => (take8 bs).map fun (v, r) => (v.setWidth 32, r)
  | .w16, bs => (take16 bs).map fun (v, r) => (v.setWidth 32, r)
  | .w32, bs => take32 bs

/-- An immediate byte sign-extended to a width: Ibs (R233). -/
def takeImmS (w : Width) (bs : List Byte) : Option (BitVec 32 × List Byte) :=
  (take8 bs).map fun (v, r) => ((v.signExtend w.bits).setWidth 32, r)

/-- The displacement of a memory operand with mod 0, 1 or 2 (R222, R223, R225). -/
def takeDisp16 (md : BitVec 2) (bs : List Byte) : Option (Disp 16 × List Byte) :=
  match md.toNat with
  | 0 => some (.none, bs)
  | 1 => (take8 bs).map fun (v, r) => (.byte v, r)
  | _ => (take16 bs).map fun (v, r) => (.full v, r)

/-- The displacement of a memory operand with mod 0, 1 or 2 (R222, R223, R225). -/
def takeDisp32 (md : BitVec 2) (bs : List Byte) : Option (Disp 32 × List Byte) :=
  match md.toNat with
  | 0 => some (.none, bs)
  | 1 => (take8 bs).map fun (v, r) => (.byte v, r)
  | _ => (take32 bs).map fun (v, r) => (.full v, r)

/-- A 16-bit address after its ModRM byte (R222). -/
def decodeEa16 (m : Byte) (bs : List Byte) : Option (Ea × List Byte) :=
  if hi2 m = 0 ∧ low3 m = 6 then (take16 bs).map fun (v, r) => (.a16 .abs (.full v), r)
  else (takeDisp16 (hi2 m) bs).map fun (d, r) => (.a16 (Base16.ofBits (low3 m)) d, r)

/-- The index register of a SIB byte: index 4 is none, and ss is then ignored (R224). -/
def sibIndex (sib : Byte) : Option (Reg × Scale) :=
  if mid3 sib = 4 then none else some (Reg.ofBits (mid3 sib), Scale.ofBits (hi2 sib))

/-- A 32-bit address after its ModRM and SIB bytes (R224). -/
def decodeSib (m sib : Byte) (bs : List Byte) : Option (Ea × List Byte) :=
  if hi2 m = 0 ∧ low3 sib = 5 then (take32 bs).map fun (v, r) => (.a32 none (sibIndex sib) (.full v), r)
  else (takeDisp32 (hi2 m) bs).map fun (d, r) => (.a32 (some (Reg.ofBits (low3 sib))) (sibIndex sib) d, r)

/-- A 32-bit address after its ModRM byte (R223). -/
def decodeEa32 (m : Byte) (bs : List Byte) : Option (Ea × List Byte) :=
  if low3 m = 4 then
    match bs with
    | sib :: r => decodeSib m sib r
    | [] => none
  else if hi2 m = 0 ∧ low3 m = 5 then (take32 bs).map fun (v, r) => (.a32 none none (.full v), r)
  else (takeDisp32 (hi2 m) bs).map fun (d, r) => (.a32 (some (Reg.ofBits (low3 m))) none d, r)

/-- The effective address of a ModRM byte with mod 0, 1 or 2 (R221). -/
def decodeEa (as : Size) (m : Byte) (bs : List Byte) : Option (Ea × List Byte) :=
  match as with
  | .s16 => decodeEa16 m bs
  | .s32 => decodeEa32 m bs

/-- The memory operand of a ModRM byte, with its segment after override (R212, R240). -/
def decodeMem (as : Size) (p : Prefixes) (m : Byte) (bs : List Byte) : Option (MemRef × List Byte) :=
  (decodeEa as m bs).map fun (ea, r) => (⟨p.segOr ea.defaultSeg, ea⟩, r)

/-- The E operand of a ModRM byte (R221, R230). -/
def decodeRm (as : Size) (p : Prefixes) (m : Byte) (bs : List Byte) : Option (Rm × List Byte) :=
  if hi2 m = 3 then some (.reg (Reg.ofBits (low3 m)), bs)
  else (decodeMem as p m bs).map fun (x, r) => (.mem x, r)

/-! ## Instructions by number -/

/-- The two-operand instruction with number 0 to 7 (R250, R252). -/
def aluInstr (k : Nat) (w : Width) (dst : Rm) (src : Operand) : Instr :=
  match k with
  | 0 => .add w dst src
  | 1 => .or w dst src
  | 2 => .adc w dst src
  | 3 => .sbb w dst src
  | 4 => .and w dst src
  | 5 => .sub w dst src
  | 6 => .xor w dst src
  | _ => .cmp w dst src

/-- The shift or rotate with number 0 to 7; 6 is the alias of 4 (R253, R263). -/
def shiftInstr (k : Nat) (w : Width) (dst : Rm) (count : ShiftCount) : Instr :=
  match k with
  | 0 => .rol w dst count
  | 1 => .ror w dst count
  | 2 => .rcl w dst count
  | 3 => .rcr w dst count
  | 4 => .shl w dst count
  | 5 => .shr w dst count
  | 6 => .shl w dst count
  | _ => .sar w dst count

/-- The conditional branch of a condition (R250, R251). -/
def jccInstr (c : Cond) (os : Size) (rel : Rel) : Instr :=
  match c with
  | .o => .jo os rel
  | .no => .jno os rel
  | .b => .jb os rel
  | .ae => .jae os rel
  | .e => .je os rel
  | .ne => .jne os rel
  | .be => .jbe os rel
  | .a => .ja os rel
  | .s => .js os rel
  | .ns => .jns os rel
  | .p => .jp os rel
  | .np => .jnp os rel
  | .l => .jl os rel
  | .ge => .jge os rel
  | .le => .jle os rel
  | .g => .jg os rel

/-- The SETcc of a condition (R251). -/
def setccInstr (c : Cond) (dst : Rm) : Instr :=
  match c with
  | .o => .seto dst
  | .no => .setno dst
  | .b => .setb dst
  | .ae => .setae dst
  | .e => .sete dst
  | .ne => .setne dst
  | .be => .setbe dst
  | .a => .seta dst
  | .s => .sets dst
  | .ns => .setns dst
  | .p => .setp dst
  | .np => .setnp dst
  | .l => .setl dst
  | .ge => .setge dst
  | .le => .setle dst
  | .g => .setg dst

/-- The bit-test instruction with group 8 number 4 to 7 (R258). -/
def bitInstr (k : Nat) (os : Size) (dst : Rm) (off : BitOff) : Instr :=
  match k with
  | 4 => .bt os dst off
  | 5 => .bts os dst off
  | 6 => .btr os dst off
  | _ => .btc os dst off

/-- The prefix that a byte is, if it is one (R210). -/
def prefixOf (b : Byte) : Option Instr :=
  match b.toNat with
  | 0x26 => some .prefixEs
  | 0x2E => some .prefixCs
  | 0x36 => some .prefixSs
  | 0x3E => some .prefixDs
  | 0x64 => some .prefixFs
  | 0x65 => some .prefixGs
  | 0x66 => some .prefixOpSize
  | 0x67 => some .prefixAddrSize
  | 0xF0 => some .prefixLock
  | 0xF2 => some .prefixRepne
  | 0xF3 => some .prefixRep
  | _ => none

/-- Whether an instruction is a prefix byte: the decoder then goes on (R201, R210). -/
def Instr.isPrefix : Instr → Bool
  | .prefixEs | .prefixCs | .prefixSs | .prefixDs | .prefixFs | .prefixGs | .prefixOpSize | .prefixAddrSize | .prefixLock
  | .prefixRepne | .prefixRep => true
  | _ => false

/-! ## Invalid encodings -/

/-- A one-byte opcode that is invalid, the x87 escapes apart (R260, R262). -/
def badOp1 (b : Byte) : Bool :=
  b = 0x62 || b = 0x63 || b = 0xD6 || b = 0xF1

/-- An x87 escape D8 to DF (R262). -/
def isX87 (b : Byte) : Bool := 0xD8 ≤ b.toNat && b.toNat ≤ 0xDF

/-- A second opcode byte, after 0F, that names an instruction (R251). -/
def goodOp2 (b : Byte) : Bool :=
  let o := b.toNat
  o = 0x01 || o = 0x06 || o = 0x20 || o = 0x22 || (0x80 ≤ o && o ≤ 0xA1) || (0xA3 ≤ o && o ≤ 0xA5) || o = 0xA8 || o = 0xA9
    || (0xAB ≤ o && o ≤ 0xAD) || o = 0xAF || (0xB2 ≤ o && o ≤ 0xB7) || (0xBA ≤ o && o ≤ 0xBF)

/-- A ModRM byte that makes a one-byte opcode invalid (R255, R256, R259, R261). -/
def badModRM1 (op m : Byte) : Bool :=
  let r := (mid3 m).toNat
  match op.toNat with
  | 0x8C => 6 ≤ r
  | 0x8D => hi2 m = 3
  | 0x8E => r = 1 || 6 ≤ r
  | 0x8F => r ≠ 0
  | 0xC4 => hi2 m = 3
  | 0xC5 => hi2 m = 3
  | 0xC6 => r ≠ 0
  | 0xC7 => r ≠ 0
  | 0xFE => 2 ≤ r
  | 0xFF => r = 7 || ((r = 3 || r = 5) && hi2 m = 3)
  | _ => false

/-- A ModRM byte that makes a two-byte opcode invalid (R257, R258, R261). -/
def badModRM2 (op2 m : Byte) : Bool :=
  let r := (mid3 m).toNat
  match op2.toNat with
  | 0x01 => r = 5 || r = 7 || (r ≤ 3 && hi2 m = 3)
  | 0x20 => 5 ≤ r
  | 0x22 => 5 ≤ r
  | 0xB2 => hi2 m = 3
  | 0xB4 => hi2 m = 3
  | 0xB5 => hi2 m = 3
  | 0xBA => r ≤ 3
  | _ => false

/-! ## The opcode maps -/

/-- The width of an opcode by its bit 0: 8, or OS (R241). -/
def opWidth (o : Nat) (os : Size) : Width := if o % 2 = 0 then .w8 else os.width

/-- Opcodes 00 to 3F but 0F (R250). -/
def decode00 (os as : Size) (p : Prefixes) (b : Byte) (bs : List Byte) : Option (Instr × List Byte) :=
  let o := b.toNat
  let w := opWidth o os
  if o % 8 < 2 then do
    let (m, r) ← take8 bs
    let (e, r) ← decodeRm as p m r
    some (aluInstr (o / 8) w e (.rm (.reg (Reg.ofBits (mid3 m)))), r)
  else if o % 8 < 4 then do
    let (m, r) ← take8 bs
    let (e, r) ← decodeRm as p m r
    some (aluInstr (o / 8) w (.reg (Reg.ofBits (mid3 m))) (.rm e), r)
  else if o % 8 < 6 then do
    let (v, r) ← takeImm w bs
    some (aluInstr (o / 8) w (.reg .eax) (.imm v), r)
  else if o = 0x06 then some (.pushEs os, bs)
  else if o = 0x07 then some (.popEs os, bs)
  else if o = 0x0E then some (.pushCs os, bs)
  else if o = 0x16 then some (.pushSs os, bs)
  else if o = 0x17 then some (.popSs os, bs)
  else if o = 0x1E then some (.pushDs os, bs)
  else if o = 0x1F then some (.popDs os, bs)
  else if o = 0x27 then some (.daa, bs)
  else if o = 0x2F then some (.das, bs)
  else if o = 0x37 then some (.aaa, bs)
  else some (.aas, bs)

/-- Opcodes 40 to 7F but 62, 63 (R250). -/
def decode40 (os as : Size) (p : Prefixes) (b : Byte) (bs : List Byte) : Option (Instr × List Byte) :=
  let o := b.toNat
  let r3 := Reg.ofBits (low3 b)
  if o < 0x48 then some (.inc os.width (.reg r3), bs)
  else if o < 0x50 then some (.dec os.width (.reg r3), bs)
  else if o < 0x58 then some (.push os (.reg r3), bs)
  else if o < 0x60 then some (.pop os r3, bs)
  else if o = 0x60 then some (.pusha os, bs)
  else if o = 0x61 then some (.popa os, bs)
  else if o = 0x68 then do
    let (v, r) ← takeImm os.width bs
    some (.pushImm os v, r)
  else if o = 0x69 then do
    let (m, r) ← take8 bs
    let (e, r) ← decodeRm as p m r
    let (v, r) ← takeImm os.width r
    some (.imulImm os (Reg.ofBits (mid3 m)) e v, r)
  else if o = 0x6A then do
    let (v, r) ← takeImmS os.width bs
    some (.pushImm os v, r)
  else if o = 0x6B then do
    let (m, r) ← take8 bs
    let (e, r) ← decodeRm as p m r
    let (v, r) ← takeImmS os.width r
    some (.imulImm os (Reg.ofBits (mid3 m)) e v, r)
  else if o = 0x6C then some (.insb as p.isRep, bs)
  else if o = 0x6D then some (.insw os as p.isRep, bs)
  else if o = 0x6E then some (.outsb as (p.segOr .ds) p.isRep, bs)
  else if o = 0x6F then some (.outsw os as (p.segOr .ds) p.isRep, bs)
  else do
    let (d, r) ← take8 bs
    some (jccInstr (Cond.ofCode (o % 16)) os (.short d), r)

/-- Opcodes 80 to BF (R250, R252). -/
def decode80 (os as : Size) (p : Prefixes) (b : Byte) (bs : List Byte) : Option (Instr × List Byte) :=
  let o := b.toNat
  let w := opWidth o os
  if o < 0x84 then do
    let (m, r) ← take8 bs
    let (e, r) ← decodeRm as p m r
    let (v, r) ← if o = 0x83 then takeImmS w r else takeImm w r
    some (aluInstr (mid3 m).toNat w e (.imm v), r)
  else if o < 0x86 then do
    let (m, r) ← take8 bs
    let (e, r) ← decodeRm as p m r
    some (.test w e (.rm (.reg (Reg.ofBits (mid3 m)))), r)
  else if o < 0x88 then do
    let (m, r) ← take8 bs
    let (e, r) ← decodeRm as p m r
    some (.xchg w e (Reg.ofBits (mid3 m)), r)
  else if o < 0x8A then do
    let (m, r) ← take8 bs
    let (e, r) ← decodeRm as p m r
    some (.mov w e (.rm (.reg (Reg.ofBits (mid3 m)))), r)
  else if o < 0x8C then do
    let (m, r) ← take8 bs
    let (e, r) ← decodeRm as p m r
    some (.mov w (.reg (Reg.ofBits (mid3 m))) (.rm e), r)
  else if o < 0x90 then do
    let (m, r) ← take8 bs
    if badModRM1 b m then some (.invalid (.oneModRM b m), r)
    else if o = 0x8C then do
      let (e, r) ← decodeRm as p m r
      some (.movFromSeg os e ((SegReg.ofBits (mid3 m)).getD .es), r)
    else if o = 0x8D then do
      let (ea, r) ← decodeEa as m r
      some (.lea os (Reg.ofBits (mid3 m)) ea, r)
    else if o = 0x8E then do
      let (e, r) ← decodeRm as p m r
      some (.movToSeg ((SegReg.ofBits (mid3 m)).getD .es) e, r)
    else do
      let (e, r) ← decodeRm as p m r
      some (.popRm os e, r)
  else if o = 0x90 then some (.nop, bs)
  else if o < 0x98 then some (.xchg os.width (.reg .eax) (Reg.ofBits (low3 b)), bs)
  else if o = 0x98 then some (.cbw os, bs)
  else if o = 0x99 then some (.cwd os, bs)
  else if o = 0x9A then do
    let (off, r) ← takeOff os bs
    let (sel, r) ← take16 r
    some (.callFar os off sel, r)
  else if o = 0x9B then some (.wait, bs)
  else if o = 0x9C then some (.pushf os, bs)
  else if o = 0x9D then
    match os with
    | .s16 => some (.popf, bs)
    | .s32 => some (.popfd, bs)
  else if o = 0x9E then some (.sahf, bs)
  else if o = 0x9F then some (.lahf, bs)
  else if o < 0xA2 then do
    let (off, r) ← takeOff as bs
    some (.movAccMoffs w ⟨p.segOr .ds, as, off⟩, r)
  else if o < 0xA4 then do
    let (off, r) ← takeOff as bs
    some (.movMoffsAcc w ⟨p.segOr .ds, as, off⟩, r)
  else if o = 0xA4 then some (.movsb as (p.segOr .ds) p.isRep, bs)
  else if o = 0xA5 then some (.movsw os as (p.segOr .ds) p.isRep, bs)
  else if o = 0xA6 then some (.cmpsb as (p.segOr .ds) p.cmpRep, bs)
  else if o = 0xA7 then some (.cmpsw os as (p.segOr .ds) p.cmpRep, bs)
  else if o < 0xAA then do
    let (v, r) ← takeImm w bs
    some (.test w (.reg .eax) (.imm v), r)
  else if o = 0xAA then some (.stosb as p.isRep, bs)
  else if o = 0xAB then some (.stosw os as p.isRep, bs)
  else if o = 0xAC then some (.lodsb as (p.segOr .ds) p.isRep, bs)
  else if o = 0xAD then some (.lodsw os as (p.segOr .ds) p.isRep, bs)
  else if o = 0xAE then some (.scasb as p.cmpRep, bs)
  else if o = 0xAF then some (.scasw os as p.cmpRep, bs)
  else if o < 0xB8 then do
    let (v, r) ← takeImm .w8 bs
    some (.mov .w8 (.reg (Reg.ofBits (low3 b))) (.imm v), r)
  else do
    let (v, r) ← takeImm os.width bs
    some (.mov os.width (.reg (Reg.ofBits (low3 b))) (.imm v), r)

/-- Group 3, opcodes F6 and F7 (R254). -/
def decodeGroup3 (as : Size) (p : Prefixes) (w : Width) (bs : List Byte) : Option (Instr × List Byte) := do
  let (m, r) ← take8 bs
  let (e, r) ← decodeRm as p m r
  match (mid3 m).toNat with
  | 2 => some (.not w e, r)
  | 3 => some (.neg w e, r)
  | 4 => some (.mul w e, r)
  | 5 => some (.imul w e, r)
  | 6 => some (.div w e, r)
  | 7 => some (.idiv w e, r)
  | _ => do
    let (v, r) ← takeImm w r
    some (.test w e (.imm v), r)

/-- Groups 4 and 5, opcodes FE and FF (R255, R256). -/
def decodeGroup45 (os as : Size) (p : Prefixes) (b : Byte) (bs : List Byte) : Option (Instr × List Byte) := do
  let w := opWidth b.toNat os
  let (m, r) ← take8 bs
  if badModRM1 b m then some (.invalid (.oneModRM b m), r)
  else
    match (mid3 m).toNat with
    | 0 => do
      let (e, r) ← decodeRm as p m r
      some (.inc w e, r)
    | 1 => do
      let (e, r) ← decodeRm as p m r
      some (.dec w e, r)
    | 2 => do
      let (e, r) ← decodeRm as p m r
      some (.callInd os e, r)
    | 3 => do
      let (x, r) ← decodeMem as p m r
      some (.callFarInd os x, r)
    | 4 => do
      let (e, r) ← decodeRm as p m r
      some (.jmpInd os e, r)
    | 5 => do
      let (x, r) ← decodeMem as p m r
      some (.jmpFarInd os x, r)
    | _ => do
      let (e, r) ← decodeRm as p m r
      some (.push os e, r)

/-- Opcodes C0 to FF but D6, D8 to DF, F1 (R250). -/
def decodeC0 (os as : Size) (p : Prefixes) (b : Byte) (bs : List Byte) : Option (Instr × List Byte) :=
  let o := b.toNat
  let w := opWidth o os
  if o < 0xC2 then do
    let (m, r) ← take8 bs
    let (e, r) ← decodeRm as p m r
    let (n, r) ← take8 r
    some (shiftInstr (mid3 m).toNat w e (.imm n), r)
  else if o = 0xC2 then do
    let (v, r) ← take16 bs
    some (.retImm os v, r)
  else if o = 0xC3 then some (.ret os, bs)
  else if o < 0xC6 then do
    let (m, r) ← take8 bs
    if badModRM1 b m then some (.invalid (.oneModRM b m), r)
    else do
      let (x, r) ← decodeMem as p m r
      some (if o = 0xC4 then .les os (Reg.ofBits (mid3 m)) x else .lds os (Reg.ofBits (mid3 m)) x, r)
  else if o < 0xC8 then do
    let (m, r) ← take8 bs
    if badModRM1 b m then some (.invalid (.oneModRM b m), r)
    else do
      let (e, r) ← decodeRm as p m r
      let (v, r) ← takeImm w r
      some (.mov w e (.imm v), r)
  else if o = 0xC8 then do
    let (v, r) ← take16 bs
    let (n, r) ← take8 r
    some (.enter os v n, r)
  else if o = 0xC9 then some (.leave os, bs)
  else if o = 0xCA then do
    let (v, r) ← take16 bs
    some (.retfImm os v, r)
  else if o = 0xCB then some (.retf os, bs)
  else if o = 0xCC then some (.int3, bs)
  else if o = 0xCD then do
    let (v, r) ← take8 bs
    some (.int v, r)
  else if o = 0xCE then some (.into, bs)
  else if o = 0xCF then some (.iret os, bs)
  else if o < 0xD2 then do
    let (m, r) ← take8 bs
    let (e, r) ← decodeRm as p m r
    some (shiftInstr (mid3 m).toNat w e .one, r)
  else if o < 0xD4 then do
    let (m, r) ← take8 bs
    let (e, r) ← decodeRm as p m r
    some (shiftInstr (mid3 m).toNat w e .cl, r)
  else if o = 0xD4 then do
    let (v, r) ← take8 bs
    some (.aam v, r)
  else if o = 0xD5 then do
    let (v, r) ← take8 bs
    some (.aad v, r)
  else if o = 0xD7 then some (.xlat as (p.segOr .ds), bs)
  else if o = 0xE0 then do
    let (d, r) ← take8 bs
    some (.loopne os as d, r)
  else if o = 0xE1 then do
    let (d, r) ← take8 bs
    some (.loope os as d, r)
  else if o = 0xE2 then do
    let (d, r) ← take8 bs
    some (.loop os as d, r)
  else if o = 0xE3 then do
    let (d, r) ← take8 bs
    some (.jcxz os as d, r)
  else if o < 0xE6 then do
    let (n, r) ← take8 bs
    some (.inImm w n, r)
  else if o < 0xE8 then do
    let (n, r) ← take8 bs
    some (.outImm w n, r)
  else if o = 0xE8 then do
    let (d, r) ← takeJz os bs
    some (.callRel os d, r)
  else if o = 0xE9 then do
    let (d, r) ← takeJz os bs
    some (.jmpRel os (.near d), r)
  else if o = 0xEA then do
    let (off, r) ← takeOff os bs
    let (sel, r) ← take16 r
    some (.jmpFar os off sel, r)
  else if o = 0xEB then do
    let (d, r) ← take8 bs
    some (.jmpRel os (.short d), r)
  else if o < 0xEE then some (.inDx w, bs)
  else if o < 0xF0 then some (.outDx w, bs)
  else if o = 0xF4 then some (.hlt, bs)
  else if o = 0xF5 then some (.cmc, bs)
  else if o < 0xF8 then decodeGroup3 as p w bs
  else if o = 0xF8 then some (.clc, bs)
  else if o = 0xF9 then some (.stc, bs)
  else if o = 0xFA then some (.cli, bs)
  else if o = 0xFB then some (.sti, bs)
  else if o = 0xFC then some (.cld, bs)
  else if o = 0xFD then some (.std, bs)
  else decodeGroup45 os as p b bs

/-- Group 7, opcode 0F 01 (R257). -/
def decodeGroup7 (os as : Size) (p : Prefixes) (b : Byte) (bs : List Byte) : Option (Instr × List Byte) := do
  let (m, r) ← take8 bs
  if badModRM2 b m then some (.invalid (.twoModRM b m), r)
  else
    match (mid3 m).toNat with
    | 0 => do
      let (x, r) ← decodeMem as p m r
      some (.sgdt os x, r)
    | 1 => do
      let (x, r) ← decodeMem as p m r
      some (.sidt os x, r)
    | 2 => do
      let (x, r) ← decodeMem as p m r
      some (.lgdt os x, r)
    | 3 => do
      let (x, r) ← decodeMem as p m r
      some (.lidt os x, r)
    | 4 => do
      let (e, r) ← decodeRm as p m r
      some (.smsw os e, r)
    | _ => do
      let (e, r) ← decodeRm as p m r
      some (.lmsw e, r)

/-- The far-pointer loads 0F B2, B4, B5 (R251). -/
def decodeFarLoad (os as : Size) (p : Prefixes) (b : Byte) (bs : List Byte) : Option (Instr × List Byte) := do
  let (m, r) ← take8 bs
  if badModRM2 b m then some (.invalid (.twoModRM b m), r)
  else do
    let (x, r) ← decodeMem as p m r
    let g := Reg.ofBits (mid3 m)
    some (if b = 0xB2 then .lss os g x else if b = 0xB4 then .lfs os g x else .lgs os g x, r)

/-- The two-byte opcodes, after 0F (R251). -/
def decode0F (os as : Size) (p : Prefixes) (b : Byte) (bs : List Byte) : Option (Instr × List Byte) :=
  let o := b.toNat
  if !goodOp2 b then some (.invalid (.two b), bs)
  else if o = 0x01 then decodeGroup7 os as p b bs
  else if o = 0x06 then some (.clts, bs)
  else if o < 0x80 then do
    let (m, r) ← take8 bs
    if badModRM2 b m then some (.invalid (.twoModRM b m), r)
    else
      let c := (CReg.ofBits (mid3 m)).getD .cr0
      let g := Reg.ofBits (low3 m)
      some (if o = 0x20 then .movFromCr g c else .movToCr c g, r)
  else if o < 0x90 then do
    let (d, r) ← takeJz os bs
    some (jccInstr (Cond.ofCode (o % 16)) os (.near d), r)
  else if o < 0xA0 then do
    let (m, r) ← take8 bs
    let (e, r) ← decodeRm as p m r
    some (setccInstr (Cond.ofCode (o % 16)) e, r)
  else if o = 0xA0 then some (.pushFs os, bs)
  else if o = 0xA1 then some (.popFs os, bs)
  else if o = 0xA8 then some (.pushGs os, bs)
  else if o = 0xA9 then some (.popGs os, bs)
  else if o = 0xB2 || o = 0xB4 || o = 0xB5 then decodeFarLoad os as p b bs
  else do
    let (m, r) ← take8 bs
    if badModRM2 b m then some (.invalid (.twoModRM b m), r)
    else do
      let (e, r) ← decodeRm as p m r
      let g := Reg.ofBits (mid3 m)
      if o = 0xA3 then some (.bt os e (.reg g), r)
      else if o = 0xA4 then do
        let (n, r) ← take8 r
        some (.shld os e g (.imm n), r)
      else if o = 0xA5 then some (.shld os e g .cl, r)
      else if o = 0xAB then some (.bts os e (.reg g), r)
      else if o = 0xAC then do
        let (n, r) ← take8 r
        some (.shrd os e g (.imm n), r)
      else if o = 0xAD then some (.shrd os e g .cl, r)
      else if o = 0xAF then some (.imulReg os g e, r)
      else if o = 0xB3 then some (.btr os e (.reg g), r)
      else if o = 0xB6 then some (.movzxByte os g e, r)
      else if o = 0xB7 then some (.movzxWord os g e, r)
      else if o = 0xBA then do
        let (n, r) ← take8 r
        some (bitInstr (mid3 m).toNat os e (.imm n), r)
      else if o = 0xBB then some (.btc os e (.reg g), r)
      else if o = 0xBC then some (.bsf os g e, r)
      else if o = 0xBD then some (.bsr os g e, r)
      else if o = 0xBE then some (.movsxByte os g e, r)
      else some (.movsxWord os g e, r)

/-- The opcode byte that is no prefix and not 0F (R220, R250, R260). -/
def decodeOne (os as : Size) (p : Prefixes) (b : Byte) (bs : List Byte) : Option (Instr × List Byte) :=
  if badOp1 b then some (.invalid (.one b), bs)
  else if isX87 b then some (.x87Escape b, bs)
  else if b.toNat < 0x40 then decode00 os as p b bs
  else if b.toNat < 0x80 then decode40 os as p b bs
  else if b.toNat < 0xC0 then decode80 os as p b bs
  else decodeC0 os as p b bs

/-- One unit of an instruction, in code of size csz after the prefixes p: a prefix byte, or an opcode with its operands; with
the bytes left over. Nothing where the bytes end before the unit does. An invalid encoding is the instruction `invalid` or
`x87Escape`, decided by the byte that makes it invalid, with no later byte read (R201, R202). -/
def decode (csz : Size) (p : Prefixes) : List Byte → Option (Instr × List Byte)
  | [] => none
  | b :: bs =>
    match prefixOf b with
    | some i => some (i, bs)
    | none =>
      if b = 0x0F then
        match bs with
        | [] => none
        | b2 :: r => decode0F (p.os csz) (p.as csz) p b2 r
      else decodeOne (p.os csz) (p.as csz) p b bs

/-- The low n/8 bytes of a number, least significant first. -/
def bytesOfNat : Nat → Nat → List Byte
  | 0, _ => []
  | n + 1, v => BitVec.ofNat 8 v :: bytesOfNat n (v / 256)

/-- The most bytes an instruction may have (R206). -/
def maxLength : Nat := 15

/-- The bytes of an instruction whose bits are w, bit 0 the least significant of the first byte, zeros above nbits. -/
def tableBytes (nbits w : Nat) : List Byte :=
  bytesOfNat (nbits / 8) w ++ List.replicate (maxLength - nbits / 8) 0

/-- What the decoder reads from such an instruction in 16-bit code with no prefix before it. Log 11. -/
def decodeTableWord (nbits w : Nat) : Option Instr :=
  (decode .s16 .empty (tableBytes nbits w)).map Prod.fst

/-! ## The encoder -/

/-- Two bytes, least significant first. -/
def bytes16 (v : BitVec 16) : List Byte := [v.extractLsb' 0 8, v.extractLsb' 8 8]

/-- Four bytes, least significant first. -/
def bytes32 (v : BitVec 32) : List Byte :=
  [v.extractLsb' 0 8, v.extractLsb' 8 8, v.extractLsb' 16 8, v.extractLsb' 24 8]

/-- The bytes of an offset or a Jz displacement of a size. -/
def sizeBytes : Size → BitVec 32 → List Byte
  | .s16, v => bytes16 (v.setWidth 16)
  | .s32, v => bytes32 v

/-- The bytes of an immediate of a width. -/
def immBytes : Width → BitVec 32 → List Byte
  | .w8, v => [v.setWidth 8]
  | .w16, v => bytes16 (v.setWidth 16)
  | .w32, v => bytes32 v

/-- The mod field that a displacement takes (R222, R223). -/
def Disp.modBits {n : Nat} : Disp n → BitVec 2
  | .none => 0
  | .byte _ => 1
  | .full _ => 2

/-- The bytes of a 16-bit address's displacement. -/
def Disp.bytesOf16 : Disp 16 → List Byte
  | .none => []
  | .byte d => [d]
  | .full d => bytes16 d

/-- The bytes of a 32-bit address's displacement. -/
def Disp.bytesOf32 : Disp 32 → List Byte
  | .none => []
  | .byte d => [d]
  | .full d => bytes32 d

/-- The SIB index and scale fields. -/
def indexBits : Option (Reg × Scale) → BitVec 2 × BitVec 3
  | none => (0, 4)
  | some (r, s) => (s.toBits, r.toBits)

/-- ModRM, SIB and displacement of an effective address, with a value for the reg field (R222 to R224). -/
def encodeEa (g : BitVec 3) : Ea → List Byte
  | .a16 .abs d => mkFields 0 g 6 :: d.bytesOf16
  | .a16 b d => mkFields d.modBits g b.toBits :: d.bytesOf16
  | .a32 none none d => mkFields 0 g 5 :: d.bytesOf32
  | .a32 none i d => mkFields 0 g 4 :: mkFields (indexBits i).1 (indexBits i).2 5 :: d.bytesOf32
  | .a32 (some b) none d =>
    if b = .esp then mkFields d.modBits g 4 :: mkFields 0 4 4 :: d.bytesOf32
    else mkFields d.modBits g b.toBits :: d.bytesOf32
  | .a32 (some b) i d => mkFields d.modBits g 4 :: mkFields (indexBits i).1 (indexBits i).2 b.toBits :: d.bytesOf32

/-- ModRM, SIB and displacement of an E operand, with a value for the reg field (R221). -/
def encodeRm (g : BitVec 3) : Rm → List Byte
  | .reg r => [mkFields 3 g r.toBits]
  | .mem m => encodeEa g m.ea

/-- Opcode bit 0 of a width: 0 for 8 bits (R241). -/
def Width.opBit : Width → Nat
  | .w8 => 0
  | _ => 1

/-- An opcode byte. -/
def opByte (n : Nat) : Byte := BitVec.ofNat 8 n

/-- The two-operand instruction with number k (R250, R252). -/
def encodeAlu (k : Nat) (w : Width) (dst : Rm) : Operand → List Byte
  | .rm (.reg g) => opByte (8 * k + w.opBit) :: encodeRm g.toBits dst
  | .imm v => opByte (0x80 + w.opBit) :: (encodeRm (BitVec.ofNat 3 k) dst ++ immBytes w v)
  | .rm (.mem m) =>
    match dst with
    | .reg g => opByte (8 * k + 2 + w.opBit) :: encodeEa g.toBits m.ea
    | .mem _ => []

/-- A group member with number k under an opcode. -/
def encodeGroup (op : Nat) (k : Nat) (e : Rm) : List Byte := opByte op :: encodeRm (BitVec.ofNat 3 k) e

/-- The shift or rotate with number k (R253). -/
def encodeShift (k : Nat) (w : Width) (e : Rm) : ShiftCount → List Byte
  | .imm n => encodeGroup (0xC0 + w.opBit) k e ++ [n]
  | .one => encodeGroup (0xD0 + w.opBit) k e
  | .cl => encodeGroup (0xD2 + w.opBit) k e

/-- A two-byte opcode with ModRM. -/
def encode0F (op : Nat) (g : BitVec 3) (e : Rm) : List Byte := 0x0F :: opByte op :: encodeRm g e

/-- SHLD or SHRD, by its opcode with Ib (R480, R481). -/
def encodeDouble (op : Nat) (e : Rm) (g : Reg) : ShiftCount → List Byte
  | .imm n => encode0F op g.toBits e ++ [n]
  | _ => encode0F (op + 1) g.toBits e

/-- A bit test with number k 4 to 7 (R251, R258). -/
def encodeBit (k : Nat) (e : Rm) : BitOff → List Byte
  | .reg g => encode0F (0x83 + 8 * k) g.toBits e
  | .imm n => encode0F 0xBA (BitVec.ofNat 3 k) e ++ [n]

/-- Jcc with a condition (R521, R522). -/
def encodeJcc (c : Cond) (os : Size) : Rel → List Byte
  | .short d => [opByte (0x70 + c.code), d]
  | .near d => 0x0F :: opByte (0x80 + c.code) :: sizeBytes os d

/-- SETcc with a condition (R315). -/
def encodeSetcc (c : Cond) (e : Rm) : List Byte := encode0F (0x90 + c.code) 0 e

/-- The deciding bytes of an invalid encoding. -/
def BadCode.bytes : BadCode → List Byte
  | .one op => [op]
  | .two op2 => [0x0F, op2]
  | .oneModRM op m => [op, m]
  | .twoModRM op2 m => [0x0F, op2, m]

/-- The bytes of a well-formed instruction, its prefixes apart (R250 to R259). Where several encodings mean the instruction,
the long immediate and the ModRM form are taken. -/
def encode : Instr → List Byte
  | .prefixEs => [0x26]
  | .prefixCs => [0x2E]
  | .prefixSs => [0x36]
  | .prefixDs => [0x3E]
  | .prefixFs => [0x64]
  | .prefixGs => [0x65]
  | .prefixOpSize => [0x66]
  | .prefixAddrSize => [0x67]
  | .prefixLock => [0xF0]
  | .prefixRepne => [0xF2]
  | .prefixRep => [0xF3]
  | .add w d s => encodeAlu 0 w d s
  | .or w d s => encodeAlu 1 w d s
  | .adc w d s => encodeAlu 2 w d s
  | .sbb w d s => encodeAlu 3 w d s
  | .and w d s => encodeAlu 4 w d s
  | .sub w d s => encodeAlu 5 w d s
  | .xor w d s => encodeAlu 6 w d s
  | .cmp w d s => encodeAlu 7 w d s
  | .test w d (.rm (.reg g)) => opByte (0x84 + w.opBit) :: encodeRm g.toBits d
  | .test w d (.imm v) => encodeGroup (0xF6 + w.opBit) 0 d ++ immBytes w v
  | .test _ _ (.rm (.mem _)) => []
  | .inc w d => encodeGroup (0xFE + w.opBit) 0 d
  | .dec w d => encodeGroup (0xFE + w.opBit) 1 d
  | .not w d => encodeGroup (0xF6 + w.opBit) 2 d
  | .neg w d => encodeGroup (0xF6 + w.opBit) 3 d
  | .mul w s => encodeGroup (0xF6 + w.opBit) 4 s
  | .imul w s => encodeGroup (0xF6 + w.opBit) 5 s
  | .div w s => encodeGroup (0xF6 + w.opBit) 6 s
  | .idiv w s => encodeGroup (0xF6 + w.opBit) 7 s
  | .imulReg _ g e => encode0F 0xAF g.toBits e
  | .imulImm os g e v => opByte 0x69 :: (encodeRm g.toBits e ++ immBytes os.width v)
  | .daa => [0x27]
  | .das => [0x2F]
  | .aaa => [0x37]
  | .aas => [0x3F]
  | .aam v => [0xD4, v]
  | .aad v => [0xD5, v]
  | .rol w e c => encodeShift 0 w e c
  | .ror w e c => encodeShift 1 w e c
  | .rcl w e c => encodeShift 2 w e c
  | .rcr w e c => encodeShift 3 w e c
  | .shl w e c => encodeShift 4 w e c
  | .shr w e c => encodeShift 5 w e c
  | .sar w e c => encodeShift 7 w e c
  | .shld _ e g c => encodeDouble 0xA4 e g c
  | .shrd _ e g c => encodeDouble 0xAC e g c
  | .bt _ e o => encodeBit 4 e o
  | .bts _ e o => encodeBit 5 e o
  | .btr _ e o => encodeBit 6 e o
  | .btc _ e o => encodeBit 7 e o
  | .bsf _ g e => encode0F 0xBC g.toBits e
  | .bsr _ g e => encode0F 0xBD g.toBits e
  | .mov w d (.rm (.reg g)) => opByte (0x88 + w.opBit) :: encodeRm g.toBits d
  | .mov w (.reg g) (.rm (.mem m)) => opByte (0x8A + w.opBit) :: encodeEa g.toBits m.ea
  | .mov w d (.imm v) => encodeGroup (0xC6 + w.opBit) 0 d ++ immBytes w v
  | .mov _ (.mem _) (.rm (.mem _)) => []
  | .movAccMoffs w m => opByte (0xA0 + w.opBit) :: sizeBytes m.size m.off
  | .movMoffsAcc w m => opByte (0xA2 + w.opBit) :: sizeBytes m.size m.off
  | .movFromSeg _ e s => opByte 0x8C :: encodeRm s.toBits e
  | .movToSeg s e => opByte 0x8E :: encodeRm s.toBits e
  | .movFromCr g c => [0x0F, 0x20, mkFields 3 c.toBits g.toBits]
  | .movToCr c g => [0x0F, 0x22, mkFields 3 c.toBits g.toBits]
  | .xchg w e g => opByte (0x86 + w.opBit) :: encodeRm g.toBits e
  | .lea _ g ea => opByte 0x8D :: encodeEa g.toBits ea
  | .movzxByte _ g e => encode0F 0xB6 g.toBits e
  | .movzxWord _ g e => encode0F 0xB7 g.toBits e
  | .movsxByte _ g e => encode0F 0xBE g.toBits e
  | .movsxWord _ g e => encode0F 0xBF g.toBits e
  | .lds _ g m => opByte 0xC5 :: encodeEa g.toBits m.ea
  | .les _ g m => opByte 0xC4 :: encodeEa g.toBits m.ea
  | .lss _ g m => 0x0F :: opByte 0xB2 :: encodeEa g.toBits m.ea
  | .lfs _ g m => 0x0F :: opByte 0xB4 :: encodeEa g.toBits m.ea
  | .lgs _ g m => 0x0F :: opByte 0xB5 :: encodeEa g.toBits m.ea
  | .cbw _ => [0x98]
  | .cwd _ => [0x99]
  | .lahf => [0x9F]
  | .sahf => [0x9E]
  | .xlat _ _ => [0xD7]
  | .seto e => encodeSetcc .o e
  | .setno e => encodeSetcc .no e
  | .setb e => encodeSetcc .b e
  | .setae e => encodeSetcc .ae e
  | .sete e => encodeSetcc .e e
  | .setne e => encodeSetcc .ne e
  | .setbe e => encodeSetcc .be e
  | .seta e => encodeSetcc .a e
  | .sets e => encodeSetcc .s e
  | .setns e => encodeSetcc .ns e
  | .setp e => encodeSetcc .p e
  | .setnp e => encodeSetcc .np e
  | .setl e => encodeSetcc .l e
  | .setge e => encodeSetcc .ge e
  | .setle e => encodeSetcc .le e
  | .setg e => encodeSetcc .g e
  | .push _ (.reg r) => [opByte (0x50 + r.toBits.toNat)]
  | .push _ (.mem m) => opByte 0xFF :: encodeEa 6 m.ea
  | .pushImm os v => opByte 0x68 :: immBytes os.width v
  | .pushEs _ => [0x06]
  | .pushCs _ => [0x0E]
  | .pushSs _ => [0x16]
  | .pushDs _ => [0x1E]
  | .pushFs _ => [0x0F, 0xA0]
  | .pushGs _ => [0x0F, 0xA8]
  | .pop _ r => [opByte (0x58 + r.toBits.toNat)]
  | .popRm _ e => encodeGroup 0x8F 0 e
  | .popEs _ => [0x07]
  | .popSs _ => [0x17]
  | .popDs _ => [0x1F]
  | .popFs _ => [0x0F, 0xA1]
  | .popGs _ => [0x0F, 0xA9]
  | .pusha _ => [0x60]
  | .popa _ => [0x61]
  | .pushf _ => [0x9C]
  | .popf => [0x9D]
  | .popfd => [0x9D]
  | .enter _ v n => opByte 0xC8 :: (bytes16 v ++ [n])
  | .leave _ => [0xC9]
  | .jo os t => encodeJcc .o os t
  | .jno os t => encodeJcc .no os t
  | .jb os t => encodeJcc .b os t
  | .jae os t => encodeJcc .ae os t
  | .je os t => encodeJcc .e os t
  | .jne os t => encodeJcc .ne os t
  | .jbe os t => encodeJcc .be os t
  | .ja os t => encodeJcc .a os t
  | .js os t => encodeJcc .s os t
  | .jns os t => encodeJcc .ns os t
  | .jp os t => encodeJcc .p os t
  | .jnp os t => encodeJcc .np os t
  | .jl os t => encodeJcc .l os t
  | .jge os t => encodeJcc .ge os t
  | .jle os t => encodeJcc .le os t
  | .jg os t => encodeJcc .g os t
  | .jcxz _ _ d => [0xE3, d]
  | .loop _ _ d => [0xE2, d]
  | .loope _ _ d => [0xE1, d]
  | .loopne _ _ d => [0xE0, d]
  | .jmpRel _ (.short d) => [0xEB, d]
  | .jmpRel os (.near d) => opByte 0xE9 :: sizeBytes os d
  | .jmpInd _ e => encodeGroup 0xFF 4 e
  | .jmpFar os off sel => opByte 0xEA :: (sizeBytes os off ++ bytes16 sel)
  | .jmpFarInd _ m => opByte 0xFF :: encodeEa 5 m.ea
  | .callRel os d => opByte 0xE8 :: sizeBytes os d
  | .callInd _ e => encodeGroup 0xFF 2 e
  | .callFar os off sel => opByte 0x9A :: (sizeBytes os off ++ bytes16 sel)
  | .callFarInd _ m => opByte 0xFF :: encodeEa 3 m.ea
  | .ret _ => [0xC3]
  | .retImm _ v => opByte 0xC2 :: bytes16 v
  | .retf _ => [0xCB]
  | .retfImm _ v => opByte 0xCA :: bytes16 v
  | .int v => [0xCD, v]
  | .int3 => [0xCC]
  | .into => [0xCE]
  | .iret _ => [0xCF]
  | .movsb _ _ _ => [0xA4]
  | .movsw _ _ _ _ => [0xA5]
  | .cmpsb _ _ _ => [0xA6]
  | .cmpsw _ _ _ _ => [0xA7]
  | .stosb _ _ => [0xAA]
  | .stosw _ _ _ => [0xAB]
  | .lodsb _ _ _ => [0xAC]
  | .lodsw _ _ _ _ => [0xAD]
  | .scasb _ _ => [0xAE]
  | .scasw _ _ _ => [0xAF]
  | .insb _ _ => [0x6C]
  | .insw _ _ _ => [0x6D]
  | .outsb _ _ _ => [0x6E]
  | .outsw _ _ _ _ => [0x6F]
  | .inImm w n => [opByte (0xE4 + w.opBit), n]
  | .inDx w => [opByte (0xEC + w.opBit)]
  | .outImm w n => [opByte (0xE6 + w.opBit), n]
  | .outDx w => [opByte (0xEE + w.opBit)]
  | .clc => [0xF8]
  | .stc => [0xF9]
  | .cmc => [0xF5]
  | .cli => [0xFA]
  | .sti => [0xFB]
  | .cld => [0xFC]
  | .std => [0xFD]
  | .nop => [0x90]
  | .wait => [0x9B]
  | .hlt => [0xF4]
  | .lgdt _ m => 0x0F :: 0x01 :: encodeEa 2 m.ea
  | .lidt _ m => 0x0F :: 0x01 :: encodeEa 3 m.ea
  | .sgdt _ m => 0x0F :: 0x01 :: encodeEa 0 m.ea
  | .sidt _ m => 0x0F :: 0x01 :: encodeEa 1 m.ea
  | .lmsw e => encode0F 0x01 6 e
  | .smsw _ e => encode0F 0x01 4 e
  | .clts => [0x0F, 0x06]
  | .invalid c => c.bytes
  | .x87Escape op => [op]

end Sys2Proof
end

