-- ==== Sys2Proof/Machine/State.lean ====
section
/-! DEFINITION. The state of the core as plain data (10_state.md), the fault kinds (R700 to R706), and the state after reset (R110). -/

namespace Sys2Proof.Machine

/-- The eight general registers (R50). -/
structure Regs where
  eax : BitVec 32
  ecx : BitVec 32
  edx : BitVec 32
  ebx : BitVec 32
  esp : BitVec 32
  ebp : BitVec 32
  esi : BitVec 32
  edi : BitVec 32
deriving DecidableEq, Repr

/-- The named flags of FLAGS (R65); the reserved bits are not stored, they read 0 (R66). `ifl` is IF and `ofl` is OF. -/
structure Flags where
  cf : Bool
  pf : Bool
  af : Bool
  zf : Bool
  sf : Bool
  tf : Bool
  ifl : Bool
  df : Bool
  ofl : Bool
  iopl : BitVec 2
  nt : Bool
  rf : Bool
  vm : Bool
  ac : Bool
  vif : Bool
  vip : Bool
  id : Bool
deriving DecidableEq, Repr

/-- A cached descriptor; `limit` is the effective byte limit (R70, R134). -/
structure Desc where
  base : BitVec 32
  limit : BitVec 32
  isCode : Bool
  isWritable : Bool
  is32 : Bool
  accessed : Bool
deriving DecidableEq, Repr

/-- A segment register: selector and cached descriptor (R70). -/
structure Segment where
  sel : BitVec 16
  desc : Desc
deriving DecidableEq, Repr

/-- The six segment registers (R71). -/
structure Segs where
  es : Segment
  cs : Segment
  ss : Segment
  ds : Segment
  fs : Segment
  gs : Segment
deriving DecidableEq, Repr

/-- The control registers (R80, R81). -/
structure CRegs where
  cr0 : BitVec 32
  cr1 : BitVec 32
  cr2 : BitVec 32
  cr3 : BitVec 32
  cr4 : BitVec 32
deriving DecidableEq, Repr

/-- GDTR or IDTR (R85, R86). -/
structure TableReg where
  base : BitVec 32
  limit : BitVec 16
deriving DecidableEq, Repr

/-- The mode latch (R95). -/
inductive Mode where
  | real
  | prot
deriving DecidableEq, Repr

/-- The interrupt latch (R96). -/
structure Latch where
  pending : Bool
  vector : BitVec 8
deriving DecidableEq, Repr

/-- What a cycle knows of the instruction it is decoding, discarded at the cycle's end (R99, R204, R211): the code size fixed at
the start of the cycle, the prefixes so far, and the bytes read so far. -/
structure Cyc where
  csz : Size
  pfx : Prefixes
  bytes : List Byte
deriving DecidableEq, Repr

/-- The transient state between cycles. -/
abbrev Cyc.empty : Cyc := ⟨.s16, .empty, []⟩

/-- Memory: address and byte pairs, addresses strictly rising, no byte equal to what an unlisted address reads as (R120). -/
abbrev Memory := List Host.Cell

/-- A call the core has made to a device's `readFn` or `writeFn` (R171, R172): the device, the port, the width and the value read
or written. -/
inductive IoEvent where
  | read (device : Nat) (port : BitVec 16) (w : Width) (value : BitVec 32)
  | write (device : Nat) (port : BitVec 16) (w : Width) (value : BitVec 32)
deriving DecidableEq, Repr

/-- P_UNMAPPED_IN32: 0x0000FFFF or 0xFFFFFFFF (R12, R173, D36). -/
inductive Unmapped32 where
  | lowOnes
  | allOnes
deriving DecidableEq, Repr

/-- A registration `(portList, readFn, writeFn)` (R174, R744): the ports, and the number of the device that stands for the pair of
callbacks. Log 3. -/
structure Registration where
  ports : List (BitVec 16)
  device : Nat
deriving DecidableEq, Repr

/-- The open parameters (R12). `ioMap` is P_IO_MAP as the host built it: its registrations, the latest first (R174). No step changes them. Log 2, log 3. -/
structure Params where
  memSize : Nat
  irqMaskedByIf : Bool
  unmappedIn32 : Unmapped32
  ioMap : List Registration
deriving DecidableEq, Repr

/-- The range of P_MEM_SIZE: 0x100000 <= P_MEM_SIZE <= 2^32 (R12, R120). The ranges of the other parameters are their types. -/
abbrev Params.Legal (p : Params) : Prop := 0x100000 ≤ p.memSize ∧ p.memSize ≤ 2 ^ 32

/-- The state of the machine. `cyc` is empty between cycles; `ioLog` (newest first) and `draws` are the model's own (log 3, log 4). -/
structure State where
  regs : Regs
  eip : BitVec 32
  flags : Flags
  segs : Segs
  cr : CRegs
  gdtr : TableReg
  idtr : TableReg
  mode : Mode
  latch : Latch
  halted : Bool
  intDepth : Nat
  cyc : Cyc
  mem : Memory
  ioLog : List IoEvent
  params : Params
  draws : Nat
deriving DecidableEq, Repr

/-- What a GeneralProtectionFault reports (R702). -/
inductive GpInfo where
  | offset (o : BitVec 32)
  | selector (v : BitVec 16)
deriving DecidableEq, Repr

/-- The fault kinds, with what they report (R701 to R706). -/
inductive FaultKind where
  /-- DIV, IDIV with a zero divisor or a quotient that does not fit; AAM 0 (R701). -/
  | divisionError
  /-- In protected mode: a fetch above the CS limit, a null CS selector, a selector beyond the GDT (R702). -/
  | generalProtection (info : GpInfo)
  /-- An invalid encoding, or a sixteenth byte; the bytes read so far (R703). -/
  | invalidOpcode (bytes : List Byte)
  /-- HLT with IF = 0 (R704). -/
  | haltWithInterruptsDisabled
  /-- An access at or above P_MEM_SIZE; the first such address (R705). -/
  | memoryBounds (addr : BitVec 32)
deriving DecidableEq, Repr

/-- How a cycle ends with Fault(kind, info) (R700). -/
inductive Fault where
  /-- Raised by any faulting cycle but the one below. The state the fault leaves is the state before the cycle. Safe: it is
  what the spec says (R203, R700). -/
  | precise (kind : FaultKind)
  /-- Raised by a repeated string instruction whose iteration faults. The state the fault leaves is `committed`, with the
  completed iterations done (R581). Safe: it is what the spec says. -/
  | inRepetition (kind : FaultKind) (committed : State)
deriving DecidableEq, Repr

/-- Why the model itself stops. -/
inductive Refusal where
  /-- Raised by an arm of `exec` whose instruction has no meaning yet. Safe: the model stops where the hardware goes on. -/
  | notModelled (mnemonic : String)
deriving DecidableEq, Repr

/-- A segment register after reset: selector 0 with its real-mode descriptor (R110). -/
abbrev resetSegment (isCode : Bool) : Segment := ⟨0, ⟨0, 0xFFFF, isCode, true, false, false⟩⟩

/-- FLAGS after reset: ZF and IF, that is 0x240 (R110). -/
abbrev resetFlags : Flags :=
  { cf := false, pf := false, af := false, zf := true, sf := false, tf := false, ifl := true, df := false, ofl := false,
    iopl := 0, nt := false, rf := false, vm := false, ac := false, vif := false, vip := false, id := false }

/-- The machine after reset (R110, R760), with nothing loaded into memory and the parameters of log 2 and log 3. -/
def State.reset : State :=
  { regs := ⟨0, 0, 0, 0, 0, 0, 0, 0⟩
    eip := 0
    flags := resetFlags
    segs :=
      { es := resetSegment false, cs := resetSegment true, ss := resetSegment false, ds := resetSegment false,
        fs := resetSegment false, gs := resetSegment false }
    cr := ⟨0, 0, 0, 0, 0⟩
    gdtr := ⟨0, 0xFFFF⟩
    idtr := ⟨0, 0x03FF⟩
    mode := .real
    latch := ⟨false, 0⟩
    halted := false
    intDepth := 0
    cyc := .empty
    mem := []
    ioLog := []
    params := ⟨0x100000, true, .lowOnes, []⟩
    draws := 0 }

end Sys2Proof.Machine
end

