-- ==== Sys2Proof/Machine/Ops.lean ====
section
/-! DEFINITION. The named operations over registers, memory, segments, the stack, I/O and the host's actions, and interrupt
delivery. An operation that can fault answers `Except FaultKind`. -/

namespace Sys2Proof.Machine

/-! ## Registers (R50 to R56) -/

/-- `GPR[i]` (R50). -/
def Regs.get (r : Regs) : Reg → BitVec 32
  | .eax => r.eax
  | .ecx => r.ecx
  | .edx => r.edx
  | .ebx => r.ebx
  | .esp => r.esp
  | .ebp => r.ebp
  | .esi => r.esi
  | .edi => r.edi

/-- `GPR[i] <- v`. -/
def Regs.set (r : Regs) (i : Reg) (v : BitVec 32) : Regs :=
  match i with
  | .eax => { r with eax := v }
  | .ecx => { r with ecx := v }
  | .edx => { r with edx := v }
  | .ebx => { r with ebx := v }
  | .esp => { r with esp := v }
  | .ebp => { r with ebp := v }
  | .esi => { r with esi := v }
  | .edi => { r with edi := v }

/-- The register that holds the 8-bit view of an index: index mod 4 (R54). -/
def Reg.byteHome : Reg → Reg
  | .eax | .esp => .eax
  | .ecx | .ebp => .ecx
  | .edx | .esi => .edx
  | .ebx | .edi => .ebx

/-- Whether the 8-bit view of an index is bits 15:8 (AH, CH, DH, BH) and not bits 7:0 (R54). -/
def Reg.byteHigh : Reg → Bool
  | .eax | .ecx | .edx | .ebx => false
  | .esp | .ebp | .esi | .edi => true

/-- Replace bits 15:0 (R55). -/
def setLow16 (old : BitVec 32) (v : BitVec 16) : BitVec 32 := old.extractLsb' 16 16 ++ v

/-- Replace bits 7:0, or bits 15:8 (R55). -/
def setByte (old : BitVec 32) (high : Bool) (v : BitVec 8) : BitVec 32 :=
  if high then old.extractLsb' 16 16 ++ v ++ old.extractLsb' 0 8 else old.extractLsb' 8 24 ++ v

/-- `reg8(i)`, `reg16(i)` or `reg32(i)` by width (R52 to R54). -/
def Regs.read (r : Regs) : (w : Width) → Reg → BitVec w.bits
  | .w8, i => (r.get (Reg.byteHome i)).extractLsb' (if Reg.byteHigh i then 8 else 0) 8
  | .w16, i => (r.get i).setWidth 16
  | .w32, i => r.get i

/-- `reg8(i) <- v`, `reg16(i) <- v` or `reg32(i) <- v` by width, the other bits kept (R55). -/
def Regs.write (r : Regs) : (w : Width) → Reg → BitVec w.bits → Regs
  | .w8, i, v => r.set (Reg.byteHome i) (setByte (r.get (Reg.byteHome i)) (Reg.byteHigh i) v)
  | .w16, i, v => r.set i (setLow16 (r.get i) v)
  | .w32, i, v => r.set i v

/-- `SREG[s]` (R71). -/
def Segs.get (r : Segs) : SegReg → Segment
  | .es => r.es
  | .cs => r.cs
  | .ss => r.ss
  | .ds => r.ds
  | .fs => r.fs
  | .gs => r.gs

/-- `SREG[s] <- v`, selector and descriptor together (R72). -/
def Segs.set (r : Segs) (s : SegReg) (v : Segment) : Segs :=
  match s with
  | .es => { r with es := v }
  | .cs => { r with cs := v }
  | .ss => { r with ss := v }
  | .ds => { r with ds := v }
  | .fs => { r with fs := v }
  | .gs => { r with gs := v }

/-- `CRn` (R80, R81). -/
def CRegs.get (r : CRegs) : CReg → BitVec 32
  | .cr0 => r.cr0
  | .cr1 => r.cr1
  | .cr2 => r.cr2
  | .cr3 => r.cr3
  | .cr4 => r.cr4

/-- `CRn <- v`. -/
def CRegs.set (r : CRegs) (c : CReg) (v : BitVec 32) : CRegs :=
  match c with
  | .cr0 => { r with cr0 := v }
  | .cr1 => { r with cr1 := v }
  | .cr2 => { r with cr2 := v }
  | .cr3 => { r with cr3 := v }
  | .cr4 => { r with cr4 := v }

/-! ## One update of the state each -/

/-- Replace the general registers. -/
def State.setRegs (s : State) (v : Regs) : State := { s with regs := v }

/-- Replace EIP. -/
def State.setEip (s : State) (v : BitVec 32) : State := { s with eip := v }

/-- Replace FLAGS. -/
def State.setFlags (s : State) (v : Flags) : State := { s with flags := v }

/-- Replace a segment register. -/
def State.setSeg (s : State) (r : SegReg) (v : Segment) : State := { s with segs := s.segs.set r v }

/-- Replace a control register. -/
def State.setCr (s : State) (c : CReg) (v : BitVec 32) : State := { s with cr := s.cr.set c v }

/-- Replace GDTR. -/
def State.setGdtr (s : State) (v : TableReg) : State := { s with gdtr := v }

/-- Replace IDTR. -/
def State.setIdtr (s : State) (v : TableReg) : State := { s with idtr := v }

/-- Replace the mode latch. -/
def State.setMode (s : State) (v : Mode) : State := { s with mode := v }

/-- Replace the interrupt latch. -/
def State.setLatch (s : State) (v : Latch) : State := { s with latch := v }

/-- Replace the halted flag. -/
def State.setHalted (s : State) (v : Bool) : State := { s with halted := v }

/-- Replace the nesting counter. -/
def State.setIntDepth (s : State) (v : Nat) : State := { s with intDepth := v }

/-- Replace the transient decoding state. -/
def State.setCyc (s : State) (v : Cyc) : State := { s with cyc := v }

/-- Replace memory. -/
def State.setMem (s : State) (v : Memory) : State := { s with mem := v }

/-- Record a call to a device. -/
def State.logIo (s : State) (e : IoEvent) : State := { s with ioLog := e :: s.ioLog }

/-- Use up one draw number. -/
def State.drawn (s : State) : State := { s with draws := s.draws + 1 }

/-- A view of a general register (R52 to R54). -/
def State.reg (s : State) (w : Width) (i : Reg) : BitVec w.bits := s.regs.read w i

/-- Write a view of a general register (R55). -/
def State.setReg (s : State) (w : Width) (i : Reg) (v : BitVec w.bits) : State := s.setRegs (s.regs.write w i v)

/-! ## Memory (R120 to R122) -/

/-- What an address that is not listed reads as. Log 1. -/
def unlisted : Byte := 0

/-- The byte at an address. -/
def Memory.get : Memory → Nat → Byte
  | [], _ => unlisted
  | (a, v) :: m, k => if a = k then v else Memory.get m k

/-- Remove the entries at an address. -/
def Memory.erase : Memory → Nat → Memory
  | [], _ => []
  | (a, v) :: m, k => if a = k then Memory.erase m k else (a, v) :: Memory.erase m k

/-- Put an entry at an address, in rising order. -/
def Memory.insert : Memory → Nat → Byte → Memory
  | [], k, x => [(k, x)]
  | (a, v) :: m, k, x =>
    if a < k then (a, v) :: Memory.insert m k x
    else if a = k then (k, x) :: m
    else (k, x) :: (a, v) :: m

/-- Write a byte, keeping the canonical form. -/
def Memory.set (m : Memory) (k : Nat) (x : Byte) : Memory :=
  if x = unlisted then Memory.erase m k else Memory.insert m k x

/-- Every address of a memory is above k. -/
def Memory.above (k : Nat) (m : Memory) : Bool := m.all fun c => decide (k < c.1)

/-- The canonical form: addresses strictly rising, no byte equal to what an unlisted address reads as. -/
def Memory.wf : Memory → Bool
  | [] => true
  | (a, v) :: m => decide (v ≠ unlisted) && Memory.above a m && Memory.wf m

/-- The byte of memory at a linear address. -/
def State.byteAt (s : State) (a : BitVec 32) : Byte := s.mem.get a.toNat

/-- Write the byte of memory at a linear address. -/
def State.setByteAt (s : State) (a : BitVec 32) (v : Byte) : State := s.setMem (s.mem.set a.toNat v)

/-- The first of n addresses from lin that is at or above P_MEM_SIZE (R121). Addresses wrap at 2^32. -/
def State.badAddr (s : State) (lin : BitVec 32) : Nat → Option (BitVec 32)
  | 0 => none
  | n + 1 => if s.params.memSize ≤ lin.toNat then some lin else s.badAddr (lin + 1) n

/-- The bytes at lin as a little-endian value (R121, R122). -/
def State.load (s : State) (lin : BitVec 32) : (w : Width) → BitVec w.bits
  | .w8 => s.byteAt lin
  | .w16 => s.byteAt (lin + 1) ++ s.byteAt lin
  | .w32 => s.byteAt (lin + 3) ++ s.byteAt (lin + 2) ++ s.byteAt (lin + 1) ++ s.byteAt lin

/-- The bytes of a value put at lin, least significant first (R121, R122). -/
def State.store (s : State) (lin : BitVec 32) : (w : Width) → BitVec w.bits → State
  | .w8, v => s.setByteAt lin v
  | .w16, v => (s.setByteAt lin (v.extractLsb' 0 8)).setByteAt (lin + 1) (v.extractLsb' 8 8)
  | .w32, v =>
    (((s.setByteAt lin (v.extractLsb' 0 8)).setByteAt (lin + 1) (v.extractLsb' 8 8)).setByteAt (lin + 2)
      (v.extractLsb' 16 8)).setByteAt (lin + 3) (v.extractLsb' 24 8)

/-- `MemRead(lin, n)` for 1, 2 or 4 bytes (R121). -/
def State.memRead (s : State) (w : Width) (lin : BitVec 32) : Except FaultKind (BitVec w.bits) :=
  match s.badAddr lin w.bytes with
  | some a => .error (.memoryBounds a)
  | none => .ok (s.load lin w)

/-- `MemRead(lin, 8)`, for descriptors (R121, R132). -/
def State.memRead64 (s : State) (lin : BitVec 32) : Except FaultKind (BitVec 64) :=
  match s.badAddr lin 8 with
  | some a => .error (.memoryBounds a)
  | none => .ok (s.load (lin + 4) .w32 ++ s.load lin .w32)

/-- `MemWrite(lin, n, v)` (R121). -/
def State.memWrite (s : State) (w : Width) (lin : BitVec 32) (v : BitVec w.bits) : Except FaultKind State :=
  match s.badAddr lin w.bytes with
  | some a => .error (.memoryBounds a)
  | none => .ok (s.store lin w v)

/-! ## Sizes and EIP (R204, R205, R217, R370) -/

/-- A 32-bit value modulo 2^16 or 2^32. -/
def truncTo (sz : Size) (v : BitVec 32) : BitVec 32 :=
  match sz with
  | .s16 => (v.setWidth 16).setWidth 32
  | .s32 => v

/-- The smaller of two sizes. -/
def minSize : Size → Size → Size
  | .s32, .s32 => .s32
  | _, _ => .s16

/-- The number of bytes of a size, as an address increment. -/
def sizeStep : Size → BitVec 32
  | .s16 => 2
  | .s32 => 4

/-- The default size D, which is the code size CSZ (R204, R217). -/
def State.codeSize (s : State) : Size :=
  match s.mode with
  | .real => .s16
  | .prot => if s.segs.cs.desc.is32 then .s32 else .s16

/-- The stack-pointer width SW, by mode (R370, C7). -/
def State.sw (s : State) : Size :=
  match s.mode with
  | .real => .s16
  | .prot => .s32

/-- `next`: the address after the current instruction (R205). -/
def State.next (s : State) : BitVec 32 := truncTo s.cyc.csz (s.eip + BitVec.ofNat 32 s.cyc.bytes.length)

/-- `EIP <- next`: the instruction completes without redirecting control (R61). -/
def State.advance (s : State) : State := s.setEip s.next

/-! ## Segmentation (R130 to R140) -/

/-- `Linear(s, off)` (R130). -/
def State.linear (s : State) (r : SegReg) (off : BitVec 32) : BitVec 32 :=
  match s.mode with
  | .real => ((s.segs.get r).sel.setWidth 32 <<< 4) + off
  | .prot => (s.segs.get r).desc.base + off

/-- The segment register that a real-mode selector load gives (R131). -/
def realSegment (r : SegReg) (v : BitVec 16) : Segment :=
  ⟨v, ⟨v.setWidth 32 <<< 4, 0xFFFF, decide (r = .cs), true, false, false⟩⟩

/-- `DecodeDescriptor(D)` (R133, R134). -/
def decodeDescriptor (d : BitVec 64) : Desc :=
  { base := d.extractLsb' 56 8 ++ d.extractLsb' 16 24
    limit :=
      if d.getLsbD 55 then d.extractLsb' 48 4 ++ d.extractLsb' 0 16 ++ (0xFFF : BitVec 12)
      else (0 : BitVec 12) ++ d.extractLsb' 48 4 ++ d.extractLsb' 0 16
    isCode := d.getLsbD 44 && d.getLsbD 43
    isWritable := d.getLsbD 44 && !d.getLsbD 43 && d.getLsbD 41
    is32 := d.getLsbD 54
    accessed := d.getLsbD 40 }

/-- The offset of a selector's entry in the GDT (R132). -/
def gdtOffset (v : BitVec 16) : BitVec 32 := (v &&& 0xFFF8).setWidth 32

/-- `SetSelector(s, v)`: in real mode R131, in protected mode R132 with the tests of R136 and R137. -/
def State.setSelector (s : State) (r : SegReg) (v : BitVec 16) : Except FaultKind State :=
  match s.mode with
  | .real => .ok (s.setSeg r (realSegment r v))
  | .prot =>
    if r = .cs ∧ v.extractLsb' 3 13 = 0 then .error (.generalProtection (.selector v))
    else if s.gdtr.limit.toNat < (gdtOffset v).toNat + 7 then .error (.generalProtection (.selector v))
    else do
      let d ← s.memRead64 (s.gdtr.base + gdtOffset v)
      .ok (s.setSeg r ⟨v, decodeDescriptor d⟩)

/-- `SampleMode()`: the mode becomes CR0.PE (R140). -/
def State.sampleMode (s : State) : State := s.setMode (if s.cr.cr0.getLsbD 0 then .prot else .real)

/-- `FarTransfer(sel, off)` (R529). -/
def State.farTransfer (s : State) (sel : BitVec 16) (off : BitVec 32) : Except FaultKind State := do
  let s ← s.setSelector .cs sel
  .ok (s.setEip (truncTo s.codeSize off))

/-- `SetNearEIP(t)` (R520). -/
def State.setNearEip (s : State) (os : Size) (t : BitVec 32) : State := s.setEip (truncTo (minSize os s.cyc.csz) t)

/-- The displacement that a near branch adds (R234). -/
def relValue : Rel → BitVec 32
  | .short d => d.signExtend 32
  | .near d => d

/-- `NearTarget(rel)` (R520). -/
def State.nearTarget (s : State) (os : Size) (rel : BitVec 32) : BitVec 32 := truncTo os (s.next + rel)

/-! ## The stack (R370) -/

/-- The stack pointer: SP zero-extended, or ESP. -/
def State.sp (s : State) : BitVec 32 :=
  match s.sw with
  | .s16 => (s.reg .w16 .esp).setWidth 32
  | .s32 => s.reg .w32 .esp

/-- Write the stack pointer: SP with ESP[31:16] kept, or ESP. -/
def State.setSp (s : State) (v : BitVec 32) : State :=
  match s.sw with
  | .s16 => s.setReg .w16 .esp (v.setWidth 16)
  | .s32 => s.setReg .w32 .esp v

/-- `Push(v, n)` (R370). -/
def State.push (s : State) (n : Size) (v : BitVec n.width.bits) : Except FaultKind State :=
  let t := s.setSp (s.sp - sizeStep n)
  t.memWrite n.width (t.linear .ss t.sp) v

/-- `Pop(n)` (R370). -/
def State.pop (s : State) (n : Size) : Except FaultKind (BitVec n.width.bits × State) := do
  let v ← s.memRead n.width (s.linear .ss s.sp)
  .ok (v, s.setSp (s.sp + sizeStep n))

/-! ## I/O ports (R170 to R176) -/

/-- What an unmapped port reads as (R173). -/
def State.unmappedValue (s : State) : (w : Width) → BitVec w.bits
  | .w8 => 0xFF
  | .w16 => 0xFFFF
  | .w32 =>
    match s.params.unmappedIn32 with
    | .lowOnes => 0x0000FFFF
    | .allOnes => 0xFFFFFFFF

/-- The device registered for a port: that of the latest registration whose list names it (R174, D25). -/
def State.deviceOf (s : State) (port : BitVec 16) : Option Nat :=
  (s.params.ioMap.find? fun r => r.ports.contains port).map Registration.device

/-- `IORead(port, w)` (R171, R173): only the port itself is looked up. A device's answer is a free value. Log 3. -/
def State.ioRead (s : State) (port : BitVec 16) (w : Width) : BitVec w.bits × State :=
  match s.deviceOf port with
  | some d =>
    let v := (Config.deviceRead s.draws d port w).setWidth w.bits
    (v, (s.logIo (.read d port w (v.setWidth 32))).drawn)
  | none => (s.unmappedValue w, s)

/-- `IOWrite(port, w, v)` (R172): a write to an unmapped port is dropped. -/
def State.ioWrite (s : State) (port : BitVec 16) (w : Width) (v : BitVec w.bits) : State :=
  match s.deviceOf port with
  | some d => s.logIo (.write d port w (v.setWidth 32))
  | none => s

/-! ## FLAGS as a word (R65, R66) -/

/-- FLAGS as 32 bits; the reserved bits are 0 (R66). -/
def Flags.toWord (f : Flags) : BitVec 32 :=
  (0 : BitVec 10) ++ BitVec.ofBool f.id ++ BitVec.ofBool f.vip ++ BitVec.ofBool f.vif ++ BitVec.ofBool f.ac
    ++ BitVec.ofBool f.vm ++ BitVec.ofBool f.rf ++ (0 : BitVec 1) ++ BitVec.ofBool f.nt ++ f.iopl ++ BitVec.ofBool f.ofl
    ++ BitVec.ofBool f.df ++ BitVec.ofBool f.ifl ++ BitVec.ofBool f.tf ++ BitVec.ofBool f.sf ++ BitVec.ofBool f.zf
    ++ (0 : BitVec 1) ++ BitVec.ofBool f.af ++ (0 : BitVec 1) ++ BitVec.ofBool f.pf ++ (0 : BitVec 1) ++ BitVec.ofBool f.cf

/-- Write the flags of the mask 0x7FD5 from an image: CF PF AF ZF SF TF IF DF OF IOPL NT (R383, R560, D22). -/
def Flags.load16 (f : Flags) (v : BitVec 16) : Flags :=
  { f with
    cf := v.getLsbD 0
    pf := v.getLsbD 2
    af := v.getLsbD 4
    zf := v.getLsbD 6
    sf := v.getLsbD 7
    tf := v.getLsbD 8
    ifl := v.getLsbD 9
    df := v.getLsbD 10
    ofl := v.getLsbD 11
    iopl := v.extractLsb' 12 2
    nt := v.getLsbD 14 }

/-- The image PUSHFD pushes: RF and VM read as 0 (R382). -/
def Flags.pushImage32 (f : Flags) : BitVec 32 := f.toWord &&& 0x00FCFFFF

/-- Write the flags of the mask 0x00247FD5 from an image and clear RF: POPFD (R384, D22). -/
def Flags.loadPopfd (f : Flags) (v : BitVec 32) : Flags :=
  { f.load16 (v.setWidth 16) with rf := false, ac := v.getLsbD 18, id := v.getLsbD 21 }

/-- Write the flags of the mask 0x00257FD5 from an image: IRETD (R560, D22). -/
def Flags.loadIretd (f : Flags) (v : BitVec 32) : Flags :=
  { f.load16 (v.setWidth 16) with rf := v.getLsbD 16, ac := v.getLsbD 18, id := v.getLsbD 21 }

/-! ## Interrupt delivery and return (R722, R560) -/

/-- The linear address of an IVT entry (R150). -/
def ivtEntry (v : BitVec 8) : BitVec 32 := v.setWidth 32 <<< 2

/-- `Deliver(v, ret)` (R722): sample the mode; push FLAGS[15:0], CS and ret[15:0]; clear IF, TF and AC; load CS:EIP from the IVT. -/
def State.deliver (s : State) (v : BitVec 8) (ret : BitVec 32) : Except FaultKind State := do
  let s := s.sampleMode
  let s ← s.push .s16 (s.flags.toWord.setWidth 16)
  let s ← s.push .s16 s.segs.cs.sel
  let s ← s.push .s16 (ret.setWidth 16)
  let s := s.setFlags { s.flags with ifl := false, tf := false, ac := false }
  let ip ← s.memRead .w16 (ivtEntry v)
  let cs ← s.memRead .w16 (ivtEntry v + 2)
  let s ← s.setSelector .cs cs
  .ok (s.setEip (ip.setWidth 32))

/-- A software interrupt: delivery with the next address as return address, and one more level of nesting (R540, D52). -/
def State.softInterrupt (s : State) (v : BitVec 8) : Except FaultKind State := do
  let t ← s.sampleMode.deliver v s.next
  .ok (t.setIntDepth (t.intDepth + 1))

/-- Interrupt return: IRET, or IRETD (R560). -/
def State.interruptReturn (s : State) (os : Size) : Except FaultKind State := do
  let s := s.sampleMode
  match os with
  | .s16 => do
    let (ip, s) ← s.pop .s16
    let (cs, s) ← s.pop .s16
    let (fl, s) ← s.pop .s16
    let s ← s.farTransfer cs (ip.setWidth 32)
    .ok ((s.setFlags (s.flags.load16 fl)).setIntDepth (s.intDepth - 1))
  | .s32 => do
    let (ip, s) ← s.pop .s32
    let (cs, s) ← s.pop .s32
    let (fl, s) ← s.pop .s32
    let s ← s.farTransfer (cs.setWidth 16) ip
    .ok ((s.setFlags (s.flags.loadIretd fl)).setIntDepth (s.intDepth - 1))

/-- Whether the latched interrupt is delivered at the start of this cycle (R200 step 1, R720). -/
def State.deliverable (s : State) : Bool := s.latch.pending && (!s.params.irqMaskedByIf || s.flags.ifl)

/-- Delivery of the latched interrupt (R200 step 1, R721): it clears the latch and `halted`, and adds a level of nesting. -/
def State.deliverLatched (s : State) : Except FaultKind State := do
  let t ← s.deliver s.latch.vector s.eip
  .ok (((t.setLatch { t.latch with pending := false }).setHalted false).setIntDepth (t.intDepth + 1))

/-! ## The transient state of a cycle (R99, R211) -/

/-- The start of the decoding of an instruction: no prefix, no byte read, the code size fixed (R204, R211). -/
def State.startCycle (s : State) : State := s.setCyc ⟨s.codeSize, .empty, []⟩

/-- The bytes of one more unit have been read. -/
def State.readUnit (s : State) (bs : List Byte) : State := s.setCyc { s.cyc with bytes := s.cyc.bytes ++ bs }

/-- The end of a cycle: the transient state is discarded (R211, R775). -/
def State.endCycle (s : State) : State := s.setCyc .empty

/-- Change the prefix state. -/
def State.setPfx (s : State) (p : Prefixes) : State := s.setCyc { s.cyc with pfx := p }

/-! ## The outcome of an instruction -/

/-- The outcome of a computation that can fault: a fault leaves the state before the cycle (R203, R700). -/
def finish : Except FaultKind State → Host.Outcome State Fault Refusal
  | .ok s => .next s
  | .error k => .fault (.precise k)

/-- The state a fault leaves (R700, R581), s being the state before the cycle. -/
def Fault.leaves (s : State) : Fault → State
  | .precise _ => s
  | .inRepetition _ t => t

/-- The kind of a fault. -/
def Fault.kindOf : Fault → FaultKind
  | .precise k => k
  | .inRepetition k _ => k

/-- The numeric code of a fault kind (R706). -/
def FaultKind.code : FaultKind → Nat
  | .divisionError => 0
  | .generalProtection _ => 1
  | .invalidOpcode _ => 2
  | .haltWithInterruptsDisabled => 3
  | .memoryBounds _ => 4

/-- The vector that a host may inject for a fault kind (R706, R745). -/
def FaultKind.advisoryVector : FaultKind → Option (BitVec 8)
  | .divisionError => some 0
  | .generalProtection _ => some 13
  | .invalidOpcode _ => some 6
  | .haltWithInterruptsDisabled => none
  | .memoryBounds _ => none

/-! ## The host's actions, between cycles (R741 to R745, R760, R761) -/

/-- `Reset()`: every item of core state takes its reset value; memory, I/O map, parameters and the model's own records stay. -/
def State.hostReset (s : State) : State :=
  { State.reset with mem := s.mem, ioLog := s.ioLog, params := s.params, draws := s.draws }

/-- `RequestInterrupt(v)`: the latch takes the vector, a later one overwriting an earlier (R96, R711). -/
def State.requestInterrupt (s : State) (v : BitVec 8) : State := s.setLatch ⟨true, v⟩

/-- The host's choice to inject a fault that has an advisory vector (R745). -/
def State.injectFault (s : State) (f : Fault) : State :=
  match (Fault.kindOf f).advisoryVector with
  | some v => (Fault.leaves s f).requestInterrupt v
  | none => Fault.leaves s f

/-- `ReadByte(addr)` of the memory service (R743). In all eight, the host keeps the addresses below P_MEM_SIZE (R747). -/
def State.hostReadByte (s : State) (a : BitVec 32) : Byte := s.load a .w8

/-- `ReadWord(addr)` (R743). -/
def State.hostReadWord (s : State) (a : BitVec 32) : BitVec 16 := s.load a .w16

/-- `ReadDWord(addr)` (R743). -/
def State.hostReadDWord (s : State) (a : BitVec 32) : BitVec 32 := s.load a .w32

/-- `WriteByte(addr, value)` (R743). -/
def State.hostWriteByte (s : State) (a : BitVec 32) (v : Byte) : State := s.store a .w8 v

/-- `WriteWord(addr, value)` (R743). -/
def State.hostWriteWord (s : State) (a : BitVec 32) (v : BitVec 16) : State := s.store a .w16 v

/-- `WriteDWord(addr, value)` (R743). -/
def State.hostWriteDWord (s : State) (a : BitVec 32) (v : BitVec 32) : State := s.store a .w32 v

/-- `BlockRead(addr, buffer, len)` (R743): what the buffer then holds. -/
def State.hostBlockRead (s : State) (a : BitVec 32) : Nat → List Byte
  | 0 => []
  | n + 1 => s.byteAt a :: s.hostBlockRead (a + 1) n

/-- `BlockWrite(addr, buffer, len)` (R743), the buffer being a list of its length. -/
def State.hostBlockWrite (s : State) (a : BitVec 32) : List Byte → State
  | [] => s
  | v :: bs => (s.setByteAt a v).hostBlockWrite (a + 1) bs

/-- Registration of a triple `(portList, readFn, writeFn)`, `device` standing for the callbacks (R174, R744). -/
def State.registerPorts (s : State) (ports : List (BitVec 16)) (device : Nat) : State :=
  { s with params := { s.params with ioMap := ⟨ports, device⟩ :: s.params.ioMap } }

end Sys2Proof.Machine
end

