-- ==== Sys2Proof/Machine/Operands.lean ====
section
/-! DEFINITION. Operands: effective addresses (R222 to R224), the places they name, reading and writing them (R240), and the
accumulator pairs of multiply and divide. -/

namespace Sys2Proof.Machine

/-- Where a register or memory operand is, its address computed once (R240). -/
inductive Place where
  | reg (r : Reg)
  | mem (lin : BitVec 32)
deriving DecidableEq, Repr

/-- The displacement of a 16-bit address: absent, `sext16(disp8)`, or disp16 (R222). -/
def dispValue16 : Disp 16 → BitVec 16
  | .none => 0
  | .byte d => d.signExtend 16
  | .full d => d

/-- The displacement of a 32-bit address: absent, `sext32(disp8)`, or disp32 (R223). -/
def dispValue32 : Disp 32 → BitVec 32
  | .none => 0
  | .byte d => d.signExtend 32
  | .full d => d

/-- The base and index of a 16-bit address (R222). -/
def State.base16 (s : State) : Base16 → BitVec 16
  | .bxSi => s.reg .w16 .ebx + s.reg .w16 .esi
  | .bxDi => s.reg .w16 .ebx + s.reg .w16 .edi
  | .bpSi => s.reg .w16 .ebp + s.reg .w16 .esi
  | .bpDi => s.reg .w16 .ebp + s.reg .w16 .edi
  | .si => s.reg .w16 .esi
  | .di => s.reg .w16 .edi
  | .bp => s.reg .w16 .ebp
  | .bx => s.reg .w16 .ebx
  | .abs => 0

/-- An index register times its scale (R224). -/
def scaled (v : BitVec 32) : Scale → BitVec 32
  | .x1 => v
  | .x2 => v <<< 1
  | .x4 => v <<< 2
  | .x8 => v <<< 3

/-- The base of a 32-bit address (R223, R224). -/
def State.base32 (s : State) : Option Reg → BitVec 32
  | none => 0
  | some r => s.reg .w32 r

/-- The scaled index of a 32-bit address (R224). -/
def State.index32 (s : State) : Option (Reg × Scale) → BitVec 32
  | none => 0
  | some (r, k) => scaled (s.reg .w32 r) k

/-- `EA`, modulo 2^AS (R142, R222, R223). -/
def State.effAddr (s : State) : Ea → BitVec 32
  | .a16 b d => (s.base16 b + dispValue16 d).setWidth 32
  | .a32 b i d => s.base32 b + s.index32 i + dispValue32 d

/-- The linear address of `seg:EA` (R130, R141). -/
def State.memAddr (s : State) (m : MemRef) : BitVec 32 := s.linear m.seg (s.effAddr m.ea)

/-- The linear address of `seg:(EA + k) mod 2^AS` (R237, R238). -/
def State.memAddrPlus (s : State) (m : MemRef) (k : BitVec 32) : BitVec 32 :=
  s.linear m.seg (truncTo m.ea.size (s.effAddr m.ea + k))

/-- The place that an E operand names. -/
def State.place (s : State) : Rm → Place
  | .reg r => .reg r
  | .mem m => .mem (s.memAddr m)

/-- `Read(op)` (R240). -/
def State.readAt (s : State) (w : Width) : Place → Except FaultKind (BitVec w.bits)
  | .reg r => .ok (s.reg w r)
  | .mem lin => s.memRead w lin

/-- `Write(op, v)` (R240). -/
def State.writeAt (s : State) (w : Width) (p : Place) (v : BitVec w.bits) : Except FaultKind State :=
  match p with
  | .reg r => .ok (s.setReg w r v)
  | .mem lin => s.memWrite w lin v

/-- Read an E operand. -/
def State.readRm (s : State) (w : Width) (x : Rm) : Except FaultKind (BitVec w.bits) := s.readAt w (s.place x)

/-- Write an E operand. -/
def State.writeRm (s : State) (w : Width) (x : Rm) (v : BitVec w.bits) : Except FaultKind State := s.writeAt w (s.place x) v

/-- Read a source operand: register, memory or immediate (R240). -/
def State.readOp (s : State) (w : Width) : Operand → Except FaultKind (BitVec w.bits)
  | .rm x => s.readRm w x
  | .imm v => .ok (v.setWidth w.bits)

/-- The linear address of a direct memory offset (R236). -/
def State.moffsAddr (s : State) (m : Moffs) : BitVec 32 := s.linear m.seg m.off

/-- A far pointer in memory: offset at EA, selector at EA + OS/8 (R237). -/
def State.readFar (s : State) (os : Size) (m : MemRef) : Except FaultKind (BitVec 32 × BitVec 16) := do
  let off ← s.memRead os.width (s.memAddr m)
  let sel ← s.memRead .w16 (s.memAddrPlus m (sizeStep os))
  .ok (off.setWidth 32, sel)

/-- Rules R308, R316 to R320: load `r:dst` from a far pointer in memory. -/
def State.loadFar (s : State) (os : Size) (r : SegReg) (dst : Reg) (m : MemRef) : Except FaultKind State := do
  let (off, sel) ← s.readFar os m
  let t ← s.setSelector r sel
  .ok (t.setReg os.width dst (off.setWidth os.width.bits))

/-- A table base with operand size OS: 24 bits when OS is 16 (R655, R657). -/
def tableBase (os : Size) (base : BitVec 32) : BitVec 32 :=
  match os with
  | .s16 => base &&& 0x00FFFFFF
  | .s32 => base

/-- A pseudo-descriptor in memory: limit at EA, base at EA + 2 (R238, R655). -/
def State.readTable (s : State) (os : Size) (m : MemRef) : Except FaultKind TableReg := do
  let limit ← s.memRead .w16 (s.memAddr m)
  let base ← s.memRead .w32 (s.memAddrPlus m 2)
  .ok ⟨tableBase os base, limit⟩

/-- Store a pseudo-descriptor (R238, R657). -/
def State.writeTable (s : State) (os : Size) (m : MemRef) (v : TableReg) : Except FaultKind State := do
  let t ← s.memWrite .w16 (s.memAddr m) v.limit
  t.memWrite .w32 (s.memAddrPlus m 2) (tableBase os v.base)

/-! ## Accumulators (R420, R421, R424, R425) -/

/-- The register of the high half of a double-width accumulator: AH, DX or EDX. -/
def highReg : Width → Reg
  | .w8 => .esp
  | .w16 => .edx
  | .w32 => .edx

/-- AX, DX:AX or EDX:EAX. -/
def State.pair (s : State) (w : Width) : BitVec (w.bits + w.bits) := s.reg w (highReg w) ++ s.reg w .eax

/-- Write the halves of AX, DX:AX or EDX:EAX. -/
def State.setHalves (s : State) (w : Width) (high low : BitVec w.bits) : State :=
  (s.setReg w .eax low).setReg w (highReg w) high

/-! ## Counts -/

/-- The count of a shift, masked to 5 bits (R470, R480). -/
def State.shiftCount (s : State) : ShiftCount → Nat
  | .imm n => n.toNat % 32
  | .one => 1
  | .cl => (s.reg .w8 .ecx).toNat % 32

/-- The count register of REP, LOOP and JCXZ, zero-extended: CX or ECX by address size (R214). -/
def State.count (s : State) (as : Size) : BitVec 32 := (s.reg as.width .ecx).setWidth 32

/-- `c <- (c - 1) mod 2^AS` (R524, R580). -/
def State.decCount (s : State) (as : Size) : State :=
  s.setReg as.width .ecx ((s.count as - 1).setWidth as.width.bits)

/-! ## Bit addressing (R489) -/

/-- The place and the bit that a bit test names. -/
def State.bitPlace (s : State) (os : Size) (dst : Rm) (off : BitOff) : Place × Nat :=
  let n := os.width.bits
  match off with
  | .imm k => (s.place dst, k.toNat % n)
  | .reg g =>
    match dst with
    | .reg r => (.reg r, (s.reg os.width g).toNat % n)
    | .mem m =>
      let k := (s.reg os.width g).toInt
      (.mem (s.memAddrPlus m (BitVec.ofInt 32 (os.width.bytes * (k / n)))), (k % n).toNat)

/-! ## String operands (R582) -/

/-- An index register, zero-extended: SI or ESI, DI or EDI by address size. -/
def State.index (s : State) (as : Size) (r : Reg) : BitVec 32 := (s.reg as.width r).setWidth 32

/-- Step an index register by an element, upwards or downwards by DF. -/
def State.stepIndex (s : State) (as : Size) (w : Width) (r : Reg) : State :=
  let d := BitVec.ofNat 32 w.bytes
  s.setReg as.width r ((if s.flags.df then s.index as r - d else s.index as r + d).setWidth as.width.bits)

/-- The linear address of the source element, `src:SI` or `src:ESI`. -/
def State.srcAddr (s : State) (as : Size) (seg : SegReg) : BitVec 32 := s.linear seg (s.index as .esi)

/-- The linear address of the destination element, `ES:DI` or `ES:EDI`. -/
def State.dstAddr (s : State) (as : Size) : BitVec 32 := s.linear .es (s.index as .edi)

end Sys2Proof.Machine
end

