-- ==== Sys2Proof/Machine/Flags.lean ====
section
/-! DEFINITION. Flag computations: the helpers of R400 to R404, the conditions of R245, the steps of shifts and rotates (R470 to
R481), and the flags the spec leaves to `draw()` (D27). -/

namespace Sys2Proof.Machine

/-! ## Single flags and conditions -/

/-- Write one status flag. -/
def Flags.put (f : Flags) (x : StatusFlag) (b : Bool) : Flags :=
  match x with
  | .cf => { f with cf := b }
  | .pf => { f with pf := b }
  | .af => { f with af := b }
  | .zf => { f with zf := b }
  | .sf => { f with sf := b }
  | .ofl => { f with ofl := b }

/-- `X <- draw()` for each flag X of a list, in draw number n (D27). Log 4. -/
def Flags.free (f : Flags) (n : Nat) : List StatusFlag → Flags
  | [] => f
  | x :: xs => (f.put x (Config.freeFlag n x)).free n xs

/-- `Cond(cc)` (R245). -/
def Flags.cond (f : Flags) : Cond → Bool
  | .o => f.ofl
  | .no => !f.ofl
  | .b => f.cf
  | .ae => !f.cf
  | .e => f.zf
  | .ne => !f.zf
  | .be => f.cf || f.zf
  | .a => !f.cf && !f.zf
  | .s => f.sf
  | .ns => !f.sf
  | .p => f.pf
  | .np => !f.pf
  | .l => f.sf != f.ofl
  | .ge => f.sf == f.ofl
  | .le => f.zf || (f.sf != f.ofl)
  | .g => !f.zf && (f.sf == f.ofl)

/-! ## The helpers of R400 to R404 -/

/-- `parity(r)`: an even number of set bits among the low 8 (R400). -/
def parity {n : Nat} (r : BitVec n) : Bool :=
  !(r.getLsbD 0 ^^ r.getLsbD 1 ^^ r.getLsbD 2 ^^ r.getLsbD 3 ^^ r.getLsbD 4 ^^ r.getLsbD 5 ^^ r.getLsbD 6 ^^ r.getLsbD 7)

/-- `SZP(r, w)` (R401). -/
def Flags.szp {n : Nat} (f : Flags) (r : BitVec n) : Flags :=
  { f with sf := r.msb, zf := decide (r = 0), pf := parity r }

/-- `AddFlags(a, b, c, w)`: the result and the flags (R402). -/
def Flags.addFlags {n : Nat} (f : Flags) (a b : BitVec n) (c : Bool) : BitVec n × Flags :=
  let full := a.toNat + b.toNat + c.toNat
  let r := BitVec.ofNat n full
  let g := f.szp r
  (r, { g with cf := decide (2 ^ n ≤ full), ofl := a.msb == b.msb && r.msb != a.msb, af := (a ^^^ b ^^^ r).getLsbD 4 })

/-- `SubFlags(a, b, c, w)`: the result and the flags (R403). -/
def Flags.subFlags {n : Nat} (f : Flags) (a b : BitVec n) (c : Bool) : BitVec n × Flags :=
  let r := a - b - BitVec.ofNat n c.toNat
  let g := f.szp r
  (r, { g with
    cf := decide (a.toNat < b.toNat + c.toNat), ofl := a.msb != b.msb && r.msb != a.msb, af := (a ^^^ b ^^^ r).getLsbD 4 })

/-- `LogicFlags(r, w)`, AF from draw number k (R404). -/
def Flags.logicFlags {n : Nat} (f : Flags) (k : Nat) (r : BitVec n) : Flags :=
  ({ f with cf := false, ofl := false }.szp r).free k [.af]

/-- A result with its logic flags. -/
def Flags.withLogic {n : Nat} (f : Flags) (k : Nat) (r : BitVec n) : BitVec n × Flags := (r, f.logicFlags k r)

/-! ## Shifts and rotates (R470 to R477): one bit position per step -/

/-- Apply a one-position step k times to a value and CF. -/
def shiftLoop {n : Nat} (step : BitVec n → Bool → BitVec n × Bool) : Nat → BitVec n → Bool → BitVec n × Bool
  | 0, x, c => (x, c)
  | k + 1, x, c => shiftLoop step k (step x c).1 (step x c).2

/-- A bit put at position 0. -/
def lowBit (n : Nat) (b : Bool) : BitVec n := BitVec.ofNat n b.toNat

/-- A bit put at position n - 1. -/
def highBit (n : Nat) (b : Bool) : BitVec n := BitVec.ofNat n b.toNat <<< (n - 1)

/-- One step of ROL (R471). -/
def rolStep {n : Nat} (x : BitVec n) (_ : Bool) : BitVec n × Bool := (x <<< 1 ||| lowBit n x.msb, x.msb)

/-- One step of ROR (R472). -/
def rorStep {n : Nat} (x : BitVec n) (_ : Bool) : BitVec n × Bool := (x >>> 1 ||| highBit n (x.getLsbD 0), x.getLsbD 0)

/-- One step of RCL (R473). -/
def rclStep {n : Nat} (x : BitVec n) (c : Bool) : BitVec n × Bool := (x <<< 1 ||| lowBit n c, x.msb)

/-- One step of RCR (R474). -/
def rcrStep {n : Nat} (x : BitVec n) (c : Bool) : BitVec n × Bool := (x >>> 1 ||| highBit n c, x.getLsbD 0)

/-- One step of SHL (R475). -/
def shlStep {n : Nat} (x : BitVec n) (_ : Bool) : BitVec n × Bool := (x <<< 1, x.msb)

/-- One step of SHR (R476). -/
def shrStep {n : Nat} (x : BitVec n) (_ : Bool) : BitVec n × Bool := (x >>> 1, x.getLsbD 0)

/-- One step of SAR (R477). -/
def sarStep {n : Nat} (x : BitVec n) (_ : Bool) : BitVec n × Bool := (x >>> 1 ||| highBit n x.msb, x.getLsbD 0)

/-- OF of a left shift or rotate by one: msb of the result XOR CF (R471, R473, R475). -/
def leftOverflow {n : Nat} (_ x : BitVec n) (c : Bool) : Bool := x.msb ^^ c

/-- OF of a right rotate by one: the two top bits of the result XORed (R472, R474). -/
def rightOverflow {n : Nat} (_ x : BitVec n) (_ : Bool) : Bool := x.msb ^^ x.getLsbD (n - 2)

/-- OF of SHR by one: the original msb (R476). -/
def shrOverflow {n : Nat} (x0 _ : BitVec n) (_ : Bool) : Bool := x0.msb

/-- OF of SAR by one: 0 (R477). -/
def sarOverflow {n : Nat} (_ _ : BitVec n) (_ : Bool) : Bool := false

/-- OF of a count: its value where the count is 1, else `draw()` (R470). -/
def Flags.putOverflow (f : Flags) (k cnt : Nat) (b : Bool) : Flags :=
  if cnt = 1 then f.put .ofl b else f.free k [.ofl]

/-- The result and flags of a rotate by a nonzero count: CF and OF only (R470). -/
def Flags.rotate {n : Nat} (f : Flags) (k : Nat) (step : BitVec n → Bool → BitVec n × Bool)
    (ovf : BitVec n → BitVec n → Bool → Bool) (cnt : Nat) (a : BitVec n) : BitVec n × Flags :=
  let r := shiftLoop step cnt a f.cf
  (r.1, { f with cf := r.2 }.putOverflow k cnt (ovf a r.1 r.2))

/-- The result and flags of a shift by a nonzero count: SF, ZF, PF from the result and AF `draw()` as well (R470). -/
def Flags.shift {n : Nat} (f : Flags) (k : Nat) (step : BitVec n → Bool → BitVec n × Bool)
    (ovf : BitVec n → BitVec n → Bool → Bool) (cnt : Nat) (a : BitVec n) : BitVec n × Flags :=
  let r := f.rotate k step ovf cnt a
  (r.1, (r.2.szp r.1).free k [.af])

/-- The result and flags of a double shift, from the shifted value and the last bit shifted out; for a count above the width
the result and all six flags are `draw()` (R480, R481). -/
def Flags.doubleShift {n : Nat} (f : Flags) (k cnt : Nat) (a r : BitVec n) (c : Bool) : BitVec n × Flags :=
  if n < cnt then ((Config.freeWord k).setWidth n, f.free k [.cf, .ofl, .sf, .zf, .af, .pf])
  else (r, ((({ f with cf := c }.szp r).free k [.af]).putOverflow k cnt (r.msb ^^ a.msb)))

/-- SHLD of a by cnt with b coming in from the right (R480). -/
def shldValue {n : Nat} (a b : BitVec n) (cnt : Nat) : BitVec n := a <<< cnt ||| b >>> (n - cnt)

/-- SHRD of a by cnt with b coming in from the left (R481). -/
def shrdValue {n : Nat} (a b : BitVec n) (cnt : Nat) : BitVec n := a >>> cnt ||| b <<< (n - cnt)

/-! ## Multiply, divide, bit and decimal instructions -/

/-- CF = OF = overflow, and SF, ZF, AF, PF `draw()` (R420, R421, R423). -/
def Flags.mulFlags (f : Flags) (k : Nat) (overflow : Bool) : Flags :=
  { f with cf := overflow, ofl := overflow }.free k [.sf, .zf, .af, .pf]

/-- All six status flags `draw()` (R424, R425). -/
def Flags.divFlags (f : Flags) (k : Nat) : Flags := f.free k [.cf, .ofl, .sf, .zf, .af, .pf]

/-- CF = the bit, and OF, SF, AF, PF `draw()` (R490). -/
def Flags.bitFlags (f : Flags) (k : Nat) (b : Bool) : Flags := { f with cf := b }.free k [.ofl, .sf, .af, .pf]

/-- ZF = source is zero, and CF, OF, SF, AF, PF `draw()` (R494, R495). -/
def Flags.scanFlags (f : Flags) (k : Nat) (zero : Bool) : Flags :=
  { f with zf := zero }.free k [.cf, .ofl, .sf, .af, .pf]

/-- The least i with bit i set, if there is one (R494). -/
def lowestSet {n : Nat} (v : BitVec n) : Option Nat := (List.range n).find? fun i => v.getLsbD i

/-- The greatest i with bit i set, if there is one (R495). -/
def highestSet {n : Nat} (v : BitVec n) : Option Nat := (List.range n).reverse.find? fun i => v.getLsbD i

/-- Whether AL needs the adjustment by 6: `(AL AND 0x0F) > 9 or AF = 1` (R440 to R443). -/
def Flags.adjustLow (f : Flags) (al : BitVec 8) : Bool := decide (9 < (al &&& 0x0F).toNat) || f.af

/-- Whether AL needs the adjustment by 0x60: `oldAL > 0x99 or oldCF = 1` (R440, R441). -/
def Flags.adjustHigh (f : Flags) (al : BitVec 8) : Bool := decide (0x99 < al.toNat) || f.cf

/-- AL and the flags after DAA (R440). -/
def Flags.daa (f : Flags) (k : Nat) (al : BitVec 8) : BitVec 8 × Flags :=
  let low := f.adjustLow al
  let high := f.adjustHigh al
  let al1 := if low then al + 6 else al
  let al2 := if high then al1 + 0x60 else al1
  (al2, ({ f with cf := high, af := low }.szp al2).free k [.ofl])

/-- AL and the flags after DAS (R441): CF keeps the value of the first step where the second makes no adjustment. -/
def Flags.das (f : Flags) (k : Nat) (al : BitVec 8) : BitVec 8 × Flags :=
  let low := f.adjustLow al
  let high := f.adjustHigh al
  let al1 := if low then al - 6 else al
  let cf1 := low && (f.cf || decide (al.toNat < 6))
  let al2 := if high then al1 - 0x60 else al1
  (al2, ({ f with cf := high || cf1, af := low }.szp al2).free k [.ofl])

/-- AX and the flags after AAA (R442). -/
def Flags.aaa (f : Flags) (k : Nat) (ax : BitVec 16) : BitVec 16 × Flags :=
  let low := f.adjustLow (ax.setWidth 8)
  let ax1 := if low then ax + 0x106 else ax
  (ax1 &&& 0xFF0F, { f with af := low, cf := low }.free k [.ofl, .sf, .zf, .pf])

/-- AX and the flags after AAS (R443). -/
def Flags.aas (f : Flags) (k : Nat) (ax : BitVec 16) : BitVec 16 × Flags :=
  let low := f.adjustLow (ax.setWidth 8)
  let ax1 := if low then ax - 6 - 0x100 else ax
  (ax1 &&& 0xFF0F, { f with af := low, cf := low }.free k [.ofl, .sf, .zf, .pf])

/-- The flags after AAM and AAD: SF, ZF, PF from AL, and OF, AF, CF `draw()` (R444, R445). -/
def Flags.asciiFlags (f : Flags) (k : Nat) (al : BitVec 8) : Flags := (f.szp al).free k [.ofl, .af, .cf]

end Sys2Proof.Machine
end

