-- ==== Sys2Proof/Machine/ControlTransfer.lean ====
section
/-! DEFINITION. The control-transfer instructions (44_control_transfer.md, R520 to R560). Each begins by sampling the mode. -/

namespace Sys2Proof.Machine

/-- A conditional branch: sample the mode, then redirect control or advance (R521, R522). -/
def State.branch (s : State) (taken : Bool) (os : Size) (rel : BitVec 32) : State :=
  let t := s.sampleMode
  if taken then t.setNearEip os (t.nearTarget os rel) else t.advance

/-- JO (R521, R522). -/
def execJo (os : Size) (rel : Rel) (s : State) : Host.Outcome State Fault Refusal :=
  .next (s.branch (s.flags.cond .o) os (relValue rel))

/-- JNO (R521, R522). -/
def execJno (os : Size) (rel : Rel) (s : State) : Host.Outcome State Fault Refusal :=
  .next (s.branch (s.flags.cond .no) os (relValue rel))

/-- JB (R521, R522). -/
def execJb (os : Size) (rel : Rel) (s : State) : Host.Outcome State Fault Refusal :=
  .next (s.branch (s.flags.cond .b) os (relValue rel))

/-- JAE (R521, R522). -/
def execJae (os : Size) (rel : Rel) (s : State) : Host.Outcome State Fault Refusal :=
  .next (s.branch (s.flags.cond .ae) os (relValue rel))

/-- JE (R521, R522). -/
def execJe (os : Size) (rel : Rel) (s : State) : Host.Outcome State Fault Refusal :=
  .next (s.branch (s.flags.cond .e) os (relValue rel))

/-- JNE (R521, R522). -/
def execJne (os : Size) (rel : Rel) (s : State) : Host.Outcome State Fault Refusal :=
  .next (s.branch (s.flags.cond .ne) os (relValue rel))

/-- JBE (R521, R522). -/
def execJbe (os : Size) (rel : Rel) (s : State) : Host.Outcome State Fault Refusal :=
  .next (s.branch (s.flags.cond .be) os (relValue rel))

/-- JA (R521, R522). -/
def execJa (os : Size) (rel : Rel) (s : State) : Host.Outcome State Fault Refusal :=
  .next (s.branch (s.flags.cond .a) os (relValue rel))

/-- JS (R521, R522). -/
def execJs (os : Size) (rel : Rel) (s : State) : Host.Outcome State Fault Refusal :=
  .next (s.branch (s.flags.cond .s) os (relValue rel))

/-- JNS (R521, R522). -/
def execJns (os : Size) (rel : Rel) (s : State) : Host.Outcome State Fault Refusal :=
  .next (s.branch (s.flags.cond .ns) os (relValue rel))

/-- JP (R521, R522). -/
def execJp (os : Size) (rel : Rel) (s : State) : Host.Outcome State Fault Refusal :=
  .next (s.branch (s.flags.cond .p) os (relValue rel))

/-- JNP (R521, R522). -/
def execJnp (os : Size) (rel : Rel) (s : State) : Host.Outcome State Fault Refusal :=
  .next (s.branch (s.flags.cond .np) os (relValue rel))

/-- JL (R521, R522). -/
def execJl (os : Size) (rel : Rel) (s : State) : Host.Outcome State Fault Refusal :=
  .next (s.branch (s.flags.cond .l) os (relValue rel))

/-- JGE (R521, R522). -/
def execJge (os : Size) (rel : Rel) (s : State) : Host.Outcome State Fault Refusal :=
  .next (s.branch (s.flags.cond .ge) os (relValue rel))

/-- JLE (R521, R522). -/
def execJle (os : Size) (rel : Rel) (s : State) : Host.Outcome State Fault Refusal :=
  .next (s.branch (s.flags.cond .le) os (relValue rel))

/-- JG (R521, R522). -/
def execJg (os : Size) (rel : Rel) (s : State) : Host.Outcome State Fault Refusal :=
  .next (s.branch (s.flags.cond .g) os (relValue rel))

/-- JCXZ, JECXZ (R523). -/
def execJcxz (os as : Size) (rel : Byte) (s : State) : Host.Outcome State Fault Refusal :=
  .next (s.branch (decide (s.count as = 0)) os (rel.signExtend 32))

/-- Count down and branch where the count is not 0 and a flag condition holds (R524). -/
def State.loopBranch (s : State) (more : Bool) (os as : Size) (rel : Byte) : State :=
  let t := s.decCount as
  t.branch (decide (t.count as ≠ 0) && more) os (rel.signExtend 32)

/-- LOOP (R524). -/
def execLoop (os as : Size) (rel : Byte) (s : State) : Host.Outcome State Fault Refusal :=
  .next (s.loopBranch true os as rel)

/-- LOOPE (R524). -/
def execLoope (os as : Size) (rel : Byte) (s : State) : Host.Outcome State Fault Refusal :=
  .next (s.loopBranch s.flags.zf os as rel)

/-- LOOPNE (R524). -/
def execLoopne (os as : Size) (rel : Byte) (s : State) : Host.Outcome State Fault Refusal :=
  .next (s.loopBranch (!s.flags.zf) os as rel)

/-- JMP near relative (R525). -/
def execJmpRel (os : Size) (rel : Rel) (s : State) : Host.Outcome State Fault Refusal :=
  .next (s.branch true os (relValue rel))

/-- JMP near indirect (R526). -/
def execJmpInd (os : Size) (src : Rm) (s : State) : Host.Outcome State Fault Refusal :=
  finish do
    let t := s.sampleMode
    let v ← t.readRm os.width src
    .ok (t.setNearEip os (v.setWidth 32))

/-- JMP far direct (R527). -/
def execJmpFar (_ : Size) (off : BitVec 32) (sel : BitVec 16) (s : State) : Host.Outcome State Fault Refusal :=
  finish (s.sampleMode.farTransfer sel off)

/-- JMP far indirect (R528). -/
def execJmpFarInd (os : Size) (src : MemRef) (s : State) : Host.Outcome State Fault Refusal :=
  finish do
    let t := s.sampleMode
    let (off, sel) ← t.readFar os src
    t.farTransfer sel off

/-- Push the return address and go to a near target, in the sampled mode (R530, R531). -/
def State.callNear (s : State) (os : Size) (target : BitVec 32) : Except FaultKind State := do
  let t ← s.push os (s.next.setWidth os.width.bits)
  .ok (t.setNearEip os target)

/-- CALL near relative (R530). -/
def execCallRel (os : Size) (rel : BitVec 32) (s : State) : Host.Outcome State Fault Refusal :=
  finish (
    let t := s.sampleMode
    t.callNear os (t.nearTarget os rel))

/-- CALL near indirect: the target is read before the push (R531). -/
def execCallInd (os : Size) (src : Rm) (s : State) : Host.Outcome State Fault Refusal :=
  finish do
    let t := s.sampleMode
    let v ← t.readRm os.width src
    t.callNear os (v.setWidth 32)

/-- The far transfer of a CALL, then the pushes of the old CS and the return address, in the sampled mode (R532). -/
def State.callFar (s : State) (os : Size) (sel : BitVec 16) (off : BitVec 32) : Except FaultKind State := do
  let t ← s.farTransfer sel off
  let t ← t.push os (s.segs.cs.sel.setWidth os.width.bits)
  t.push os (s.next.setWidth os.width.bits)

/-- CALL far direct (R532). -/
def execCallFar (os : Size) (off : BitVec 32) (sel : BitVec 16) (s : State) : Host.Outcome State Fault Refusal :=
  finish (s.sampleMode.callFar os sel off)

/-- CALL far indirect (R533). -/
def execCallFarInd (os : Size) (src : MemRef) (s : State) : Host.Outcome State Fault Refusal :=
  finish do
    let t := s.sampleMode
    let (off, sel) ← t.readFar os src
    t.callFar os sel off

/-- Pop the target, release some bytes, go to the target, in the sampled mode (R534). -/
def State.returnNear (s : State) (os : Size) (release : BitVec 16) : Except FaultKind State := do
  let (v, t) ← s.pop os
  .ok ((t.setSp (t.sp + release.setWidth 32)).setNearEip os (v.setWidth 32))

/-- RET (R534). -/
def execRet (os : Size) (s : State) : Host.Outcome State Fault Refusal := finish (s.sampleMode.returnNear os 0)

/-- RET Iw (R534). -/
def execRetImm (os : Size) (imm : BitVec 16) (s : State) : Host.Outcome State Fault Refusal :=
  finish (s.sampleMode.returnNear os imm)

/-- Pop offset and selector, release some bytes, transfer, in the sampled mode (R535). -/
def State.returnFar (s : State) (os : Size) (release : BitVec 16) : Except FaultKind State := do
  let (off, t) ← s.pop os
  let (sel, t) ← t.pop os
  (t.setSp (t.sp + release.setWidth 32)).farTransfer (sel.setWidth 16) (off.setWidth 32)

/-- RETF (R535). -/
def execRetf (os : Size) (s : State) : Host.Outcome State Fault Refusal := finish (s.sampleMode.returnFar os 0)

/-- RETF Iw (R535). -/
def execRetfImm (os : Size) (imm : BitVec 16) (s : State) : Host.Outcome State Fault Refusal :=
  finish (s.sampleMode.returnFar os imm)

/-- INT n (R540). -/
def execInt (vector : Byte) (s : State) : Host.Outcome State Fault Refusal := finish (s.softInterrupt vector)

/-- INT3 (R541). -/
def execInt3 (s : State) : Host.Outcome State Fault Refusal := finish (s.softInterrupt 3)

/-- INTO: with OF = 0 it samples the mode and advances (R542). -/
def execInto (s : State) : Host.Outcome State Fault Refusal :=
  if s.flags.ofl then finish (s.softInterrupt 4) else .next s.sampleMode.advance

/-- IRET, IRETD (R560). -/
def execIret (os : Size) (s : State) : Host.Outcome State Fault Refusal := finish (s.interruptReturn os)

end Sys2Proof.Machine
end

