-- ==== Sys2Proof/Machine/Arithmetic.lean ====
section
/-! DEFINITION. The arithmetic instructions (42_arithmetic.md, R410 to R445), over three shared shapes. -/

namespace Sys2Proof.Machine

/-- Two operands, result and flags: read dst and src, write dst (R410 to R413, R460 to R462). -/
def State.binary (s : State) (w : Width) (dst : Rm) (src : Operand)
    (f : BitVec w.bits → BitVec w.bits → BitVec w.bits × Flags) : Except FaultKind State := do
  let a ← s.readRm w dst
  let b ← s.readOp w src
  let t ← s.writeRm w dst (f a b).1
  .ok (t.setFlags (f a b).2)

/-- Two operands, flags only: the result is discarded (R414, R464). -/
def State.compare (s : State) (w : Width) (dst : Rm) (src : Operand)
    (f : BitVec w.bits → BitVec w.bits → BitVec w.bits × Flags) : Except FaultKind State := do
  let a ← s.readRm w dst
  let b ← s.readOp w src
  .ok (s.setFlags (f a b).2)

/-- One operand, result and flags (R415 to R417). -/
def State.unary (s : State) (w : Width) (dst : Rm) (f : BitVec w.bits → BitVec w.bits × Flags) : Except FaultKind State := do
  let a ← s.readRm w dst
  let t ← s.writeRm w dst (f a).1
  .ok (t.setFlags (f a).2)

/-- ADD (R410). -/
def execAdd (w : Width) (dst : Rm) (src : Operand) (s : State) : Host.Outcome State Fault Refusal :=
  finish do
    let t ← s.binary w dst src fun a b => s.flags.addFlags a b false
    .ok t.advance

/-- ADC (R411). -/
def execAdc (w : Width) (dst : Rm) (src : Operand) (s : State) : Host.Outcome State Fault Refusal :=
  finish do
    let t ← s.binary w dst src fun a b => s.flags.addFlags a b s.flags.cf
    .ok t.advance

/-- SUB (R412). -/
def execSub (w : Width) (dst : Rm) (src : Operand) (s : State) : Host.Outcome State Fault Refusal :=
  finish do
    let t ← s.binary w dst src fun a b => s.flags.subFlags a b false
    .ok t.advance

/-- SBB (R413). -/
def execSbb (w : Width) (dst : Rm) (src : Operand) (s : State) : Host.Outcome State Fault Refusal :=
  finish do
    let t ← s.binary w dst src fun a b => s.flags.subFlags a b s.flags.cf
    .ok t.advance

/-- CMP (R414). -/
def execCmp (w : Width) (dst : Rm) (src : Operand) (s : State) : Host.Outcome State Fault Refusal :=
  finish do
    let t ← s.compare w dst src fun a b => s.flags.subFlags a b false
    .ok t.advance

/-- A result with CF as it was (R415, R416). -/
def Flags.keepCarry {n : Nat} (f : Flags) (r : BitVec n × Flags) : BitVec n × Flags := (r.1, { r.2 with cf := f.cf })

/-- INC (R415). -/
def execInc (w : Width) (dst : Rm) (s : State) : Host.Outcome State Fault Refusal :=
  finish do
    let t ← s.unary w dst fun a => s.flags.keepCarry (s.flags.addFlags a 1 false)
    .ok t.advance

/-- DEC (R416). -/
def execDec (w : Width) (dst : Rm) (s : State) : Host.Outcome State Fault Refusal :=
  finish do
    let t ← s.unary w dst fun a => s.flags.keepCarry (s.flags.subFlags a 1 false)
    .ok t.advance

/-- NEG (R417). -/
def execNeg (w : Width) (dst : Rm) (s : State) : Host.Outcome State Fault Refusal :=
  finish do
    let t ← s.unary w dst fun a => s.flags.subFlags 0 a false
    .ok t.advance

/-- The accumulator pair from a double-width product (R420, R421). -/
def State.setProduct (s : State) (w : Width) (p : BitVec (w.bits + w.bits)) : State :=
  s.setHalves w (p.extractLsb' w.bits w.bits) (p.extractLsb' 0 w.bits)

/-- The exact unsigned product (R420). -/
def unsignedProduct {n : Nat} (a b : BitVec n) : BitVec (n + n) := BitVec.ofNat (n + n) (a.toNat * b.toNat)

/-- The exact signed product, modulo 2^(2w) (R421). -/
def signedProduct {n : Nat} (a b : BitVec n) : BitVec (n + n) := BitVec.ofInt (n + n) (a.toInt * b.toInt)

/-- Whether the exact signed product does not fit n bits signed (R421, R423). -/
def signedOverflow {n : Nat} (a b : BitVec n) : Bool := decide (a.toInt * b.toInt ≠ (BitVec.ofInt n (a.toInt * b.toInt)).toInt)

/-- MUL (R420). -/
def execMul (w : Width) (src : Rm) (s : State) : Host.Outcome State Fault Refusal :=
  finish do
    let b ← s.readRm w src
    let p := unsignedProduct (s.reg w .eax) b
    let f := s.flags.mulFlags s.draws (decide (p.extractLsb' w.bits w.bits ≠ 0))
    .ok (((s.setProduct w p).setFlags f).drawn.advance)

/-- IMUL, one operand (R421). -/
def execImul (w : Width) (src : Rm) (s : State) : Host.Outcome State Fault Refusal :=
  finish do
    let b ← s.readRm w src
    let a := s.reg w .eax
    let f := s.flags.mulFlags s.draws (signedOverflow a b)
    .ok (((s.setProduct w (signedProduct a b)).setFlags f).drawn.advance)

/-- The signed product truncated to the width, into a register, with its flags (R423). -/
def State.imulInto (s : State) (w : Width) (dst : Reg) (x y : BitVec w.bits) : State :=
  ((s.setReg w dst (BitVec.ofInt w.bits (x.toInt * y.toInt))).setFlags
    (s.flags.mulFlags s.draws (signedOverflow x y))).drawn

/-- IMUL, two operands (R423). -/
def execImulReg (os : Size) (dst : Reg) (src : Rm) (s : State) : Host.Outcome State Fault Refusal :=
  finish do
    let y ← s.readRm os.width src
    .ok (s.imulInto os.width dst (s.reg os.width dst) y).advance

/-- IMUL, three operands (R423). -/
def execImulImm (os : Size) (dst : Reg) (src : Rm) (imm : BitVec 32) (s : State) : Host.Outcome State Fault Refusal :=
  finish do
    let x ← s.readRm os.width src
    .ok (s.imulInto os.width dst x (imm.setWidth os.width.bits)).advance

/-- DIV (R424). -/
def execDiv (w : Width) (src : Rm) (s : State) : Host.Outcome State Fault Refusal :=
  finish do
    let d ← s.readRm w src
    let n := (s.pair w).toNat
    if d = 0 then .error .divisionError
    else if 2 ^ w.bits ≤ n / d.toNat then .error .divisionError
    else
      let t := s.setHalves w (BitVec.ofNat w.bits (n % d.toNat)) (BitVec.ofNat w.bits (n / d.toNat))
      .ok (t.setFlags (s.flags.divFlags s.draws)).drawn.advance

/-- Whether a quotient is outside the signed range of n bits (R425). -/
def quotientOverflow (n : Nat) (q : Int) : Bool := decide (q < -(2 ^ (n - 1) : Int)) || decide ((2 ^ (n - 1) : Int) ≤ q)

/-- IDIV: division toward zero, the remainder with the sign of the dividend (R425). -/
def execIdiv (w : Width) (src : Rm) (s : State) : Host.Outcome State Fault Refusal :=
  finish do
    let b ← s.readRm w src
    let d := b.toInt
    let n := (s.pair w).toInt
    if b = 0 then .error .divisionError
    else if quotientOverflow w.bits (n.tdiv d) then .error .divisionError
    else
      let t := s.setHalves w (BitVec.ofInt w.bits (n.tmod d)) (BitVec.ofInt w.bits (n.tdiv d))
      .ok (t.setFlags (s.flags.divFlags s.draws)).drawn.advance

/-- DAA (R440). -/
def execDaa (s : State) : Host.Outcome State Fault Refusal :=
  let r := s.flags.daa s.draws (s.reg .w8 .eax)
  .next ((s.setReg .w8 .eax r.1).setFlags r.2).drawn.advance

/-- DAS (R441). -/
def execDas (s : State) : Host.Outcome State Fault Refusal :=
  let r := s.flags.das s.draws (s.reg .w8 .eax)
  .next ((s.setReg .w8 .eax r.1).setFlags r.2).drawn.advance

/-- AAA (R442). -/
def execAaa (s : State) : Host.Outcome State Fault Refusal :=
  let r := s.flags.aaa s.draws (s.reg .w16 .eax)
  .next ((s.setReg .w16 .eax r.1).setFlags r.2).drawn.advance

/-- AAS (R443). -/
def execAas (s : State) : Host.Outcome State Fault Refusal :=
  let r := s.flags.aas s.draws (s.reg .w16 .eax)
  .next ((s.setReg .w16 .eax r.1).setFlags r.2).drawn.advance

/-- AAM (R444). -/
def execAam (base : Byte) (s : State) : Host.Outcome State Fault Refusal :=
  finish (
    let al := s.reg .w8 .eax
    if base = 0 then .error .divisionError
    else .ok ((s.setHalves .w8 (al / base) (al % base)).setFlags (s.flags.asciiFlags s.draws (al % base))).drawn.advance)

/-- AAD (R445). -/
def execAad (base : Byte) (s : State) : Host.Outcome State Fault Refusal :=
  let al := s.reg .w8 .eax + s.reg .w8 .esp * base
  .next ((s.setHalves .w8 0 al).setFlags (s.flags.asciiFlags s.draws al)).drawn.advance

end Sys2Proof.Machine
end

