-- ==== Sys2Proof/Machine/Logic.lean ====
section
/-! DEFINITION. The logic, shift, rotate and bit instructions (43_logic_shift_bit.md, R460 to R495). -/

namespace Sys2Proof.Machine

/-- AND (R460). -/
def execAnd (w : Width) (dst : Rm) (src : Operand) (s : State) : Host.Outcome State Fault Refusal :=
  finish do
    let t ← s.binary w dst src fun a b => s.flags.withLogic s.draws (a &&& b)
    .ok t.drawn.advance

/-- OR (R461). -/
def execOr (w : Width) (dst : Rm) (src : Operand) (s : State) : Host.Outcome State Fault Refusal :=
  finish do
    let t ← s.binary w dst src fun a b => s.flags.withLogic s.draws (a ||| b)
    .ok t.drawn.advance

/-- XOR (R462). -/
def execXor (w : Width) (dst : Rm) (src : Operand) (s : State) : Host.Outcome State Fault Refusal :=
  finish do
    let t ← s.binary w dst src fun a b => s.flags.withLogic s.draws (a ^^^ b)
    .ok t.drawn.advance

/-- NOT: no flag changes (R463). -/
def execNot (w : Width) (dst : Rm) (s : State) : Host.Outcome State Fault Refusal :=
  finish do
    let t ← s.unary w dst fun a => (~~~a, s.flags)
    .ok t.advance

/-- TEST (R464). -/
def execTest (w : Width) (dst : Rm) (src : Operand) (s : State) : Host.Outcome State Fault Refusal :=
  finish do
    let t ← s.compare w dst src fun a b => s.flags.withLogic s.draws (a &&& b)
    .ok t.drawn.advance

/-- A shift or rotate: with a masked count of 0 the operand is only read (R470). -/
def State.shiftRm (s : State) (w : Width) (dst : Rm) (count : ShiftCount)
    (f : Nat → BitVec w.bits → BitVec w.bits × Flags) : Except FaultKind State := do
  let a ← s.readRm w dst
  let cnt := s.shiftCount count
  if cnt = 0 then .ok s
  else do
    let t ← s.writeRm w dst (f cnt a).1
    .ok (t.setFlags (f cnt a).2).drawn

/-- ROL (R471). -/
def execRol (w : Width) (dst : Rm) (count : ShiftCount) (s : State) : Host.Outcome State Fault Refusal :=
  finish do
    let t ← s.shiftRm w dst count fun cnt a => s.flags.rotate s.draws rolStep leftOverflow cnt a
    .ok t.advance

/-- ROR (R472). -/
def execRor (w : Width) (dst : Rm) (count : ShiftCount) (s : State) : Host.Outcome State Fault Refusal :=
  finish do
    let t ← s.shiftRm w dst count fun cnt a => s.flags.rotate s.draws rorStep rightOverflow cnt a
    .ok t.advance

/-- RCL (R473). -/
def execRcl (w : Width) (dst : Rm) (count : ShiftCount) (s : State) : Host.Outcome State Fault Refusal :=
  finish do
    let t ← s.shiftRm w dst count fun cnt a => s.flags.rotate s.draws rclStep leftOverflow cnt a
    .ok t.advance

/-- RCR (R474). -/
def execRcr (w : Width) (dst : Rm) (count : ShiftCount) (s : State) : Host.Outcome State Fault Refusal :=
  finish do
    let t ← s.shiftRm w dst count fun cnt a => s.flags.rotate s.draws rcrStep rightOverflow cnt a
    .ok t.advance

/-- SHL, which is SAL (R475). -/
def execShl (w : Width) (dst : Rm) (count : ShiftCount) (s : State) : Host.Outcome State Fault Refusal :=
  finish do
    let t ← s.shiftRm w dst count fun cnt a => s.flags.shift s.draws shlStep leftOverflow cnt a
    .ok t.advance

/-- SHR (R476). -/
def execShr (w : Width) (dst : Rm) (count : ShiftCount) (s : State) : Host.Outcome State Fault Refusal :=
  finish do
    let t ← s.shiftRm w dst count fun cnt a => s.flags.shift s.draws shrStep shrOverflow cnt a
    .ok t.advance

/-- SAR (R477). -/
def execSar (w : Width) (dst : Rm) (count : ShiftCount) (s : State) : Host.Outcome State Fault Refusal :=
  finish do
    let t ← s.shiftRm w dst count fun cnt a => s.flags.shift s.draws sarStep sarOverflow cnt a
    .ok t.advance

/-- SHLD (R480). -/
def execShld (os : Size) (dst : Rm) (src : Reg) (count : ShiftCount) (s : State) : Host.Outcome State Fault Refusal :=
  finish do
    let b := s.reg os.width src
    let t ← s.shiftRm os.width dst count fun cnt a =>
      s.flags.doubleShift s.draws cnt a (shldValue a b cnt) (a.getLsbD (os.width.bits - cnt))
    .ok t.advance

/-- SHRD (R481). -/
def execShrd (os : Size) (dst : Rm) (src : Reg) (count : ShiftCount) (s : State) : Host.Outcome State Fault Refusal :=
  finish do
    let b := s.reg os.width src
    let t ← s.shiftRm os.width dst count fun cnt a =>
      s.flags.doubleShift s.draws cnt a (shrdValue a b cnt) (a.getLsbD (cnt - 1))
    .ok t.advance

/-- The bit with index i alone. -/
def bitMask (n i : Nat) : BitVec n := 1#n <<< i

/-- BT (R490). -/
def execBt (os : Size) (dst : Rm) (off : BitOff) (s : State) : Host.Outcome State Fault Refusal :=
  finish do
    let p := s.bitPlace os dst off
    let x ← s.readAt os.width p.1
    .ok (s.setFlags (s.flags.bitFlags s.draws (x.getLsbD p.2))).drawn.advance

/-- Read the bit into CF, and write the operand changed by f (R491 to R493). -/
def State.bitModify (s : State) (os : Size) (dst : Rm) (off : BitOff)
    (f : BitVec os.width.bits → BitVec os.width.bits → BitVec os.width.bits) : Except FaultKind State := do
  let p := s.bitPlace os dst off
  let x ← s.readAt os.width p.1
  let t ← s.writeAt os.width p.1 (f x (bitMask os.width.bits p.2))
  .ok (t.setFlags (s.flags.bitFlags s.draws (x.getLsbD p.2))).drawn

/-- BTS (R491). -/
def execBts (os : Size) (dst : Rm) (off : BitOff) (s : State) : Host.Outcome State Fault Refusal :=
  finish do
    let t ← s.bitModify os dst off fun x m => x ||| m
    .ok t.advance

/-- BTR (R492). -/
def execBtr (os : Size) (dst : Rm) (off : BitOff) (s : State) : Host.Outcome State Fault Refusal :=
  finish do
    let t ← s.bitModify os dst off fun x m => x &&& ~~~m
    .ok t.advance

/-- BTC (R493). -/
def execBtc (os : Size) (dst : Rm) (off : BitOff) (s : State) : Host.Outcome State Fault Refusal :=
  finish do
    let t ← s.bitModify os dst off fun x m => x ^^^ m
    .ok t.advance

/-- The result of a bit scan: the index found, or `draw()` where the source is 0 (R494, R495, D42). -/
def State.scanResult (s : State) (w : Width) : Option Nat → BitVec w.bits
  | some i => BitVec.ofNat w.bits i
  | none => (Config.freeWord s.draws).setWidth w.bits

/-- Write the result and the flags of a bit scan (R494, R495). -/
def State.scanInto (s : State) (w : Width) (dst : Reg) (i : Option Nat) : State :=
  ((s.setReg w dst (s.scanResult w i)).setFlags (s.flags.scanFlags s.draws i.isNone)).drawn

/-- BSF (R494). -/
def execBsf (os : Size) (dst : Reg) (src : Rm) (s : State) : Host.Outcome State Fault Refusal :=
  finish do
    let v ← s.readRm os.width src
    .ok (s.scanInto os.width dst (lowestSet v)).advance

/-- BSR (R495). -/
def execBsr (os : Size) (dst : Reg) (src : Rm) (s : State) : Host.Outcome State Fault Refusal :=
  finish do
    let v ← s.readRm os.width src
    .ok (s.scanInto os.width dst (highestSet v)).advance

end Sys2Proof.Machine
end

