-- ==== Sys2Proof/Machine/Prefix.lean ====
section
/-! DEFINITION. The prefix bytes (R210 to R216): each records itself in the prefix state of the cycle, and the cycle goes on. -/

namespace Sys2Proof.Machine

/-- A segment override; the last one read wins (R211, R212). -/
def State.prefixSeg (s : State) (r : SegReg) : State := s.setPfx { s.cyc.pfx with seg := some r }

/-- A repeat prefix; the last one read wins (R211, R215). -/
def State.prefixRepeat (s : State) (r : RepPrefix) : State := s.setPfx { s.cyc.pfx with rep := some r }

/-- Prefix 26 (R210). -/
def execPrefixEs (s : State) : Host.Outcome State Fault Refusal := .next (s.prefixSeg .es)

/-- Prefix 2E (R210). -/
def execPrefixCs (s : State) : Host.Outcome State Fault Refusal := .next (s.prefixSeg .cs)

/-- Prefix 36 (R210). -/
def execPrefixSs (s : State) : Host.Outcome State Fault Refusal := .next (s.prefixSeg .ss)

/-- Prefix 3E (R210). -/
def execPrefixDs (s : State) : Host.Outcome State Fault Refusal := .next (s.prefixSeg .ds)

/-- Prefix 64 (R210). -/
def execPrefixFs (s : State) : Host.Outcome State Fault Refusal := .next (s.prefixSeg .fs)

/-- Prefix 65 (R210). -/
def execPrefixGs (s : State) : Host.Outcome State Fault Refusal := .next (s.prefixSeg .gs)

/-- Prefix 66 (R211, R213). -/
def execPrefixOpSize (s : State) : Host.Outcome State Fault Refusal := .next (s.setPfx { s.cyc.pfx with opSize := true })

/-- Prefix 67 (R211, R214). -/
def execPrefixAddrSize (s : State) : Host.Outcome State Fault Refusal := .next (s.setPfx { s.cyc.pfx with addrSize := true })

/-- Prefix F0: recorded, and no rule reads it (R216). -/
def execPrefixLock (s : State) : Host.Outcome State Fault Refusal := .next (s.setPfx { s.cyc.pfx with lock := true })

/-- Prefix F2 (R215). -/
def execPrefixRepne (s : State) : Host.Outcome State Fault Refusal := .next (s.prefixRepeat .f2)

/-- Prefix F3 (R215). -/
def execPrefixRep (s : State) : Host.Outcome State Fault Refusal := .next (s.prefixRepeat .f3)

end Sys2Proof.Machine
end

