-- ==== Sys2Proof/Machine/Stack.lean ====
section
/-! DEFINITION. The stack instructions (41_stack.md, R371 to R386), over `State.push` and `State.pop`. -/

namespace Sys2Proof.Machine

/-- PUSH of a register or memory (R371). -/
def execPush (os : Size) (src : Rm) (s : State) : Host.Outcome State Fault Refusal :=
  finish do
    let v ← s.readRm os.width src
    let t ← s.push os v
    .ok t.advance

/-- PUSH of an immediate (R372). -/
def execPushImm (os : Size) (imm : BitVec 32) (s : State) : Host.Outcome State Fault Refusal :=
  finish do
    let t ← s.push os (imm.setWidth os.width.bits)
    .ok t.advance

/-- Push a segment register zero-extended to OS (R373). -/
def State.pushSeg (s : State) (os : Size) (r : SegReg) : Except FaultKind State := do
  let t ← s.push os ((s.segs.get r).sel.setWidth os.width.bits)
  .ok t.advance

/-- PUSH ES (R373). -/
def execPushEs (os : Size) (s : State) : Host.Outcome State Fault Refusal := finish (s.pushSeg os .es)

/-- PUSH CS (R373). -/
def execPushCs (os : Size) (s : State) : Host.Outcome State Fault Refusal := finish (s.pushSeg os .cs)

/-- PUSH SS (R373). -/
def execPushSs (os : Size) (s : State) : Host.Outcome State Fault Refusal := finish (s.pushSeg os .ss)

/-- PUSH DS (R373). -/
def execPushDs (os : Size) (s : State) : Host.Outcome State Fault Refusal := finish (s.pushSeg os .ds)

/-- PUSH FS (R373). -/
def execPushFs (os : Size) (s : State) : Host.Outcome State Fault Refusal := finish (s.pushSeg os .fs)

/-- PUSH GS (R373). -/
def execPushGs (os : Size) (s : State) : Host.Outcome State Fault Refusal := finish (s.pushSeg os .gs)

/-- POP of a register (R374). -/
def execPop (os : Size) (dst : Reg) (s : State) : Host.Outcome State Fault Refusal :=
  finish do
    let (v, t) ← s.pop os
    .ok (t.setReg os.width dst v).advance

/-- POP through ModRM: the address is computed after the pop (R375). -/
def execPopRm (os : Size) (dst : Rm) (s : State) : Host.Outcome State Fault Refusal :=
  finish do
    let (v, t) ← s.pop os
    let u ← t.writeRm os.width dst v
    .ok u.advance

/-- Pop a segment register (R376). -/
def State.popSeg (s : State) (os : Size) (r : SegReg) : Except FaultKind State := do
  let (v, t) ← s.pop os
  let u ← t.setSelector r (v.setWidth 16)
  .ok u.advance

/-- POP ES (R376). -/
def execPopEs (os : Size) (s : State) : Host.Outcome State Fault Refusal := finish (s.popSeg os .es)

/-- POP SS (R376). -/
def execPopSs (os : Size) (s : State) : Host.Outcome State Fault Refusal := finish (s.popSeg os .ss)

/-- POP DS (R376). -/
def execPopDs (os : Size) (s : State) : Host.Outcome State Fault Refusal := finish (s.popSeg os .ds)

/-- POP FS (R376). -/
def execPopFs (os : Size) (s : State) : Host.Outcome State Fault Refusal := finish (s.popSeg os .fs)

/-- POP GS (R376). -/
def execPopGs (os : Size) (s : State) : Host.Outcome State Fault Refusal := finish (s.popSeg os .gs)

/-- Push a list of values in order. -/
def State.pushAll (s : State) (os : Size) : List (BitVec os.width.bits) → Except FaultKind State
  | [] => .ok s
  | v :: vs => do
    let t ← s.push os v
    t.pushAll os vs

/-- The registers in the order that PUSHA pushes them (R380). -/
def pushaOrder : List Reg := [.eax, .ecx, .edx, .ebx, .esp, .ebp, .esi, .edi]

/-- PUSHA, PUSHAD: every value, the stack pointer's too, is the one before any push (R380). -/
def execPusha (os : Size) (s : State) : Host.Outcome State Fault Refusal :=
  finish do
    let t ← s.pushAll os (pushaOrder.map fun r => s.reg os.width r)
    .ok t.advance

/-- Pop a list of registers in order, the slot of the stack pointer discarded (R381). -/
def State.popAll (s : State) (os : Size) : List Reg → Except FaultKind State
  | [] => .ok s
  | r :: rs => do
    let (v, t) ← s.pop os
    if r = .esp then t.popAll os rs else (t.setReg os.width r v).popAll os rs

/-- POPA, POPAD (R381). -/
def execPopa (os : Size) (s : State) : Host.Outcome State Fault Refusal :=
  finish do
    let t ← s.popAll os pushaOrder.reverse
    .ok t.advance

/-- The image that PUSHF or PUSHFD pushes (R382). -/
def Flags.pushImage (f : Flags) : (os : Size) → BitVec os.width.bits
  | .s16 => f.toWord.setWidth 16
  | .s32 => f.pushImage32

/-- PUSHF, PUSHFD (R382). -/
def execPushf (os : Size) (s : State) : Host.Outcome State Fault Refusal :=
  finish do
    let t ← s.push os (s.flags.pushImage os)
    .ok t.advance

/-- POPF (R383). -/
def execPopf (s : State) : Host.Outcome State Fault Refusal :=
  finish do
    let (v, t) ← s.pop .s16
    .ok (t.setFlags (t.flags.load16 v)).advance

/-- POPFD (R384). -/
def execPopfd (s : State) : Host.Outcome State Fault Refusal :=
  finish do
    let (v, t) ← s.pop .s32
    .ok (t.setFlags (t.flags.loadPopfd v)).advance

/-- The frame pointer, zero-extended: EBP when SW is 32, BP when it is 16 (R385). -/
def State.framePtr (s : State) : BitVec 32 := s.index s.sw .ebp

/-- The loop of ENTER: k times, step fp down and push the slot it then points to (R385). -/
def State.enterLoop (s : State) (os : Size) (fp : BitVec 32) : Nat → Except FaultKind State
  | 0 => .ok s
  | k + 1 => do
    let fp := truncTo s.sw (fp - sizeStep os)
    let v ← s.memRead os.width (s.linear .ss fp)
    let t ← s.push os v
    t.enterLoop os fp k

/-- The pushes of ENTER after the first, with the level taken modulo 32 (R385). -/
def State.enterLevels (s : State) (os : Size) (fp frame : BitVec 32) (level : Nat) : Except FaultKind State :=
  if level = 0 then .ok s
  else do
    let t ← s.enterLoop os fp (level - 1)
    t.push os (frame.setWidth os.width.bits)

/-- ENTER (R385). -/
def execEnter (os : Size) (alloc : BitVec 16) (level : Byte) (s : State) : Host.Outcome State Fault Refusal :=
  finish do
    let t ← s.push os (s.reg os.width .ebp)
    let frame := t.sp
    let u ← t.enterLevels os s.framePtr frame (level.toNat % 32)
    let u := u.setReg u.sw.width .ebp (frame.setWidth u.sw.width.bits)
    .ok (u.setSp (u.sp - alloc.setWidth 32)).advance

/-- LEAVE (R386). -/
def execLeave (os : Size) (s : State) : Host.Outcome State Fault Refusal :=
  finish do
    let (v, t) ← (s.setSp s.framePtr).pop os
    .ok (t.setReg os.width .ebp v).advance

end Sys2Proof.Machine
end

