-- ==== Sys2Proof/Machine/Strings.lean ====
section
/-! DEFINITION. The string instructions (45_string.md, R580 to R591): their bodies, and the repetition. -/

namespace Sys2Proof.Machine

/-- The repetition with n iterations left: each completed iteration is committed, and a faulting one leaves the state before it
(R580, R581). -/
def repeatLoop (body : State → Except FaultKind State) (as : Size) (stop : State → Bool) :
    Nat → State → Host.Outcome State Fault Refusal
  | 0, s => .next s.advance
  | n + 1, s =>
    match body s with
    | .error k => .fault (.inRepetition k s.endCycle)
    | .ok t =>
      if stop (t.decCount as) then .next (t.decCount as).advance else repeatLoop body as stop n (t.decCount as)

/-- A string body once: with no repeat prefix (R580). -/
def runOnce (body : State → Except FaultKind State) (s : State) : Host.Outcome State Fault Refusal :=
  finish do
    let t ← body s
    .ok t.advance

/-- A string body as often as CX or ECX says, with an early exit (R580). -/
def runRepeat (body : State → Except FaultKind State) (as : Size) (stop : State → Bool) (s : State) :
    Host.Outcome State Fault Refusal :=
  repeatLoop body as stop (s.count as).toNat s

/-- MOVS, STOS, LODS, INS and OUTS: once, or with REP (R580). -/
def runString (rep : Bool) (as : Size) (body : State → Except FaultKind State) (s : State) :
    Host.Outcome State Fault Refusal :=
  if rep then runRepeat body as (fun _ => false) s else runOnce body s

/-- CMPS and SCAS: once, or with REPE or REPNE (R580). -/
def runCompare (rep : CmpRep) (as : Size) (body : State → Except FaultKind State) (s : State) :
    Host.Outcome State Fault Refusal :=
  match rep with
  | .once => runOnce body s
  | .repe => runRepeat body as (fun t => !t.flags.zf) s
  | .repne => runRepeat body as (fun t => t.flags.zf) s

/-! ## The bodies -/

/-- MOVS (R584). -/
def movsBody (w : Width) (as : Size) (seg : SegReg) (s : State) : Except FaultKind State := do
  let v ← s.memRead w (s.srcAddr as seg)
  let t ← s.memWrite w (s.dstAddr as) v
  .ok ((t.stepIndex as w .esi).stepIndex as w .edi)

/-- CMPS: source minus destination (R585). -/
def cmpsBody (w : Width) (as : Size) (seg : SegReg) (s : State) : Except FaultKind State := do
  let a ← s.memRead w (s.srcAddr as seg)
  let b ← s.memRead w (s.dstAddr as)
  .ok (((s.setFlags (s.flags.subFlags a b false).2).stepIndex as w .esi).stepIndex as w .edi)

/-- STOS (R586). -/
def stosBody (w : Width) (as : Size) (s : State) : Except FaultKind State := do
  let t ← s.memWrite w (s.dstAddr as) (s.reg w .eax)
  .ok (t.stepIndex as w .edi)

/-- LODS (R587). -/
def lodsBody (w : Width) (as : Size) (seg : SegReg) (s : State) : Except FaultKind State := do
  let v ← s.memRead w (s.srcAddr as seg)
  .ok ((s.setReg w .eax v).stepIndex as w .esi)

/-- SCAS: accumulator minus destination (R588). -/
def scasBody (w : Width) (as : Size) (s : State) : Except FaultKind State := do
  let b ← s.memRead w (s.dstAddr as)
  .ok ((s.setFlags (s.flags.subFlags (s.reg w .eax) b false).2).stepIndex as w .edi)

/-- INS: the destination is checked before the port is read (R590, R175). -/
def insBody (w : Width) (as : Size) (s : State) : Except FaultKind State :=
  match s.badAddr (s.dstAddr as) w.bytes with
  | some a => .error (.memoryBounds a)
  | none => do
    let r := s.ioRead (s.reg .w16 .edx) w
    let t ← r.2.memWrite w (s.dstAddr as) r.1
    .ok (t.stepIndex as w .edi)

/-- OUTS (R591). -/
def outsBody (w : Width) (as : Size) (seg : SegReg) (s : State) : Except FaultKind State := do
  let v ← s.memRead w (s.srcAddr as seg)
  .ok ((s.ioWrite (s.reg .w16 .edx) w v).stepIndex as w .esi)

/-! ## The instructions -/

/-- MOVSB (R584). -/
def execMovsb (as : Size) (seg : SegReg) (rep : Bool) (s : State) : Host.Outcome State Fault Refusal :=
  runString rep as (movsBody .w8 as seg) s

/-- MOVSW, MOVSD (R584). -/
def execMovsw (os as : Size) (seg : SegReg) (rep : Bool) (s : State) : Host.Outcome State Fault Refusal :=
  runString rep as (movsBody os.width as seg) s

/-- CMPSB (R585). -/
def execCmpsb (as : Size) (seg : SegReg) (rep : CmpRep) (s : State) : Host.Outcome State Fault Refusal :=
  runCompare rep as (cmpsBody .w8 as seg) s

/-- CMPSW, CMPSD (R585). -/
def execCmpsw (os as : Size) (seg : SegReg) (rep : CmpRep) (s : State) : Host.Outcome State Fault Refusal :=
  runCompare rep as (cmpsBody os.width as seg) s

/-- STOSB (R586). -/
def execStosb (as : Size) (rep : Bool) (s : State) : Host.Outcome State Fault Refusal :=
  runString rep as (stosBody .w8 as) s

/-- STOSW, STOSD (R586). -/
def execStosw (os as : Size) (rep : Bool) (s : State) : Host.Outcome State Fault Refusal :=
  runString rep as (stosBody os.width as) s

/-- LODSB (R587). -/
def execLodsb (as : Size) (seg : SegReg) (rep : Bool) (s : State) : Host.Outcome State Fault Refusal :=
  runString rep as (lodsBody .w8 as seg) s

/-- LODSW, LODSD (R587). -/
def execLodsw (os as : Size) (seg : SegReg) (rep : Bool) (s : State) : Host.Outcome State Fault Refusal :=
  runString rep as (lodsBody os.width as seg) s

/-- SCASB (R588). -/
def execScasb (as : Size) (rep : CmpRep) (s : State) : Host.Outcome State Fault Refusal :=
  runCompare rep as (scasBody .w8 as) s

/-- SCASW, SCASD (R588). -/
def execScasw (os as : Size) (rep : CmpRep) (s : State) : Host.Outcome State Fault Refusal :=
  runCompare rep as (scasBody os.width as) s

/-- INSB (R590). -/
def execInsb (as : Size) (rep : Bool) (s : State) : Host.Outcome State Fault Refusal :=
  runString rep as (insBody .w8 as) s

/-- INSW, INSD (R590). -/
def execInsw (os as : Size) (rep : Bool) (s : State) : Host.Outcome State Fault Refusal :=
  runString rep as (insBody os.width as) s

/-- OUTSB (R591). -/
def execOutsb (as : Size) (seg : SegReg) (rep : Bool) (s : State) : Host.Outcome State Fault Refusal :=
  runString rep as (outsBody .w8 as seg) s

/-- OUTSW, OUTSD (R591). -/
def execOutsw (os as : Size) (seg : SegReg) (rep : Bool) (s : State) : Host.Outcome State Fault Refusal :=
  runString rep as (outsBody os.width as seg) s

end Sys2Proof.Machine
end

