-- ==== Sys2Proof/Machine/DataTransfer.lean ====
section
/-! DEFINITION. The data-transfer instructions (40_data_transfer.md, R300 to R320). None changes a flag but SAHF. -/

namespace Sys2Proof.Machine

/-- MOV between registers, memory and immediates (R300). -/
def execMov (w : Width) (dst : Rm) (src : Operand) (s : State) : Host.Outcome State Fault Refusal :=
  finish do
    let v ← s.readOp w src
    let t ← s.writeRm w dst v
    .ok t.advance

/-- MOV acc, moffs (R301). -/
def execMovAccMoffs (w : Width) (src : Moffs) (s : State) : Host.Outcome State Fault Refusal :=
  finish do
    let v ← s.memRead w (s.moffsAddr src)
    .ok (s.setReg w .eax v).advance

/-- MOV moffs, acc (R301). -/
def execMovMoffsAcc (w : Width) (dst : Moffs) (s : State) : Host.Outcome State Fault Refusal :=
  finish do
    let t ← s.memWrite w (s.moffsAddr dst) (s.reg w .eax)
    .ok t.advance

/-- Store a 16-bit system value: 16 bits to memory whatever OS, else to a register zero-extended to OS (R306). -/
def State.storeWord (s : State) (os : Size) (dst : Rm) (v : BitVec 16) : Except FaultKind State :=
  match s.place dst with
  | .reg r => .ok (s.setReg os.width r (v.setWidth os.width.bits))
  | .mem lin => s.memWrite .w16 lin v

/-- MOV Ev, Sw (R306). -/
def execMovFromSeg (os : Size) (dst : Rm) (src : SegReg) (s : State) : Host.Outcome State Fault Refusal :=
  finish do
    let t ← s.storeWord os dst (s.segs.get src).sel
    .ok t.advance

/-- MOV Sw, Ew (R307). -/
def execMovToSeg (dst : SegReg) (src : Rm) (s : State) : Host.Outcome State Fault Refusal :=
  finish do
    let v ← s.readRm .w16 src
    let t ← s.setSelector dst v
    .ok t.advance

/-- XCHG (R302). -/
def execXchg (w : Width) (op1 : Rm) (op2 : Reg) (s : State) : Host.Outcome State Fault Refusal :=
  finish do
    let a ← s.readRm w op1
    let t ← s.writeRm w op1 (s.reg w op2)
    .ok (t.setReg w op2 a).advance

/-- LEA: the effective address truncated or zero-extended to OS; no memory access (R304). -/
def execLea (os : Size) (dst : Reg) (src : Ea) (s : State) : Host.Outcome State Fault Refusal :=
  .next (s.setReg os.width dst ((s.effAddr src).setWidth os.width.bits)).advance

/-- MOVZX Gv, Eb (R305). -/
def execMovzxByte (os : Size) (dst : Reg) (src : Rm) (s : State) : Host.Outcome State Fault Refusal :=
  finish do
    let v ← s.readRm .w8 src
    .ok (s.setReg os.width dst (v.setWidth os.width.bits)).advance

/-- MOVZX Gv, Ew (R305). -/
def execMovzxWord (os : Size) (dst : Reg) (src : Rm) (s : State) : Host.Outcome State Fault Refusal :=
  finish do
    let v ← s.readRm .w16 src
    .ok (s.setReg os.width dst (v.setWidth os.width.bits)).advance

/-- MOVSX Gv, Eb (R309). -/
def execMovsxByte (os : Size) (dst : Reg) (src : Rm) (s : State) : Host.Outcome State Fault Refusal :=
  finish do
    let v ← s.readRm .w8 src
    .ok (s.setReg os.width dst (v.signExtend os.width.bits)).advance

/-- MOVSX Gv, Ew (R309). -/
def execMovsxWord (os : Size) (dst : Reg) (src : Rm) (s : State) : Host.Outcome State Fault Refusal :=
  finish do
    let v ← s.readRm .w16 src
    .ok (s.setReg os.width dst (v.signExtend os.width.bits)).advance

/-- LDS (R316). -/
def execLds (os : Size) (dst : Reg) (src : MemRef) (s : State) : Host.Outcome State Fault Refusal :=
  finish do
    let t ← s.loadFar os .ds dst src
    .ok t.advance

/-- LES (R317). -/
def execLes (os : Size) (dst : Reg) (src : MemRef) (s : State) : Host.Outcome State Fault Refusal :=
  finish do
    let t ← s.loadFar os .es dst src
    .ok t.advance

/-- LSS (R318). -/
def execLss (os : Size) (dst : Reg) (src : MemRef) (s : State) : Host.Outcome State Fault Refusal :=
  finish do
    let t ← s.loadFar os .ss dst src
    .ok t.advance

/-- LFS (R319). -/
def execLfs (os : Size) (dst : Reg) (src : MemRef) (s : State) : Host.Outcome State Fault Refusal :=
  finish do
    let t ← s.loadFar os .fs dst src
    .ok t.advance

/-- LGS (R320). -/
def execLgs (os : Size) (dst : Reg) (src : MemRef) (s : State) : Host.Outcome State Fault Refusal :=
  finish do
    let t ← s.loadFar os .gs dst src
    .ok t.advance

/-- The accumulator sign-extended from half of OS: AX from AL, or EAX from AX (R310). -/
def State.extendAcc (s : State) : Size → State
  | .s16 => s.setReg .w16 .eax ((s.reg .w8 .eax).signExtend 16)
  | .s32 => s.setReg .w32 .eax ((s.reg .w16 .eax).signExtend 32)

/-- CBW, CWDE (R310). -/
def execCbw (os : Size) (s : State) : Host.Outcome State Fault Refusal := .next (s.extendAcc os).advance

/-- CWD, CDQ (R311). -/
def execCwd (os : Size) (s : State) : Host.Outcome State Fault Refusal :=
  let ones : BitVec os.width.bits := if (s.reg os.width .eax).msb then BitVec.allOnes os.width.bits else 0
  .next (s.setReg os.width .edx ones).advance

/-- LAHF (R312). -/
def execLahf (s : State) : Host.Outcome State Fault Refusal :=
  .next (s.setReg .w8 .esp (s.flags.toWord.setWidth 8)).advance

/-- SF, ZF, AF, PF, CF from an image (R313). -/
def Flags.loadAh (f : Flags) (v : BitVec 8) : Flags :=
  { f with sf := v.getLsbD 7, zf := v.getLsbD 6, af := v.getLsbD 4, pf := v.getLsbD 2, cf := v.getLsbD 0 }

/-- SAHF (R313). -/
def execSahf (s : State) : Host.Outcome State Fault Refusal :=
  .next (s.setFlags (s.flags.loadAh (s.reg .w8 .esp))).advance

/-- The linear address of the table entry that XLAT reads (R314). -/
def State.xlatAddr (s : State) (as : Size) (seg : SegReg) : BitVec 32 :=
  s.linear seg (truncTo as (s.index as .ebx + (s.reg .w8 .eax).setWidth 32))

/-- XLAT (R314). -/
def execXlat (as : Size) (seg : SegReg) (s : State) : Host.Outcome State Fault Refusal :=
  finish do
    let v ← s.memRead .w8 (s.xlatAddr as seg)
    .ok (s.setReg .w8 .eax v).advance

/-- Write 1 where a condition holds, else 0 (R315). -/
def State.setCond (s : State) (c : Cond) (dst : Rm) : Except FaultKind State := do
  let t ← s.writeRm .w8 dst (if s.flags.cond c then 1 else 0)
  .ok t.advance

/-- SETO (R315). -/
def execSeto (dst : Rm) (s : State) : Host.Outcome State Fault Refusal := finish (s.setCond .o dst)

/-- SETNO (R315). -/
def execSetno (dst : Rm) (s : State) : Host.Outcome State Fault Refusal := finish (s.setCond .no dst)

/-- SETB (R315). -/
def execSetb (dst : Rm) (s : State) : Host.Outcome State Fault Refusal := finish (s.setCond .b dst)

/-- SETAE (R315). -/
def execSetae (dst : Rm) (s : State) : Host.Outcome State Fault Refusal := finish (s.setCond .ae dst)

/-- SETE (R315). -/
def execSete (dst : Rm) (s : State) : Host.Outcome State Fault Refusal := finish (s.setCond .e dst)

/-- SETNE (R315). -/
def execSetne (dst : Rm) (s : State) : Host.Outcome State Fault Refusal := finish (s.setCond .ne dst)

/-- SETBE (R315). -/
def execSetbe (dst : Rm) (s : State) : Host.Outcome State Fault Refusal := finish (s.setCond .be dst)

/-- SETA (R315). -/
def execSeta (dst : Rm) (s : State) : Host.Outcome State Fault Refusal := finish (s.setCond .a dst)

/-- SETS (R315). -/
def execSets (dst : Rm) (s : State) : Host.Outcome State Fault Refusal := finish (s.setCond .s dst)

/-- SETNS (R315). -/
def execSetns (dst : Rm) (s : State) : Host.Outcome State Fault Refusal := finish (s.setCond .ns dst)

/-- SETP (R315). -/
def execSetp (dst : Rm) (s : State) : Host.Outcome State Fault Refusal := finish (s.setCond .p dst)

/-- SETNP (R315). -/
def execSetnp (dst : Rm) (s : State) : Host.Outcome State Fault Refusal := finish (s.setCond .np dst)

/-- SETL (R315). -/
def execSetl (dst : Rm) (s : State) : Host.Outcome State Fault Refusal := finish (s.setCond .l dst)

/-- SETGE (R315). -/
def execSetge (dst : Rm) (s : State) : Host.Outcome State Fault Refusal := finish (s.setCond .ge dst)

/-- SETLE (R315). -/
def execSetle (dst : Rm) (s : State) : Host.Outcome State Fault Refusal := finish (s.setCond .le dst)

/-- SETG (R315). -/
def execSetg (dst : Rm) (s : State) : Host.Outcome State Fault Refusal := finish (s.setCond .g dst)

end Sys2Proof.Machine
end

