-- ==== Sys2Proof/Machine/System.lean ====
section
/-! DEFINITION. The I/O, flag-control, no-operation, halt and system-register instructions (46_io_flag_system.md, R620 to R661), and
the invalid encodings (R260 to R262). None is privileged. -/

namespace Sys2Proof.Machine

/-- Read a port into the accumulator (R620, R622). -/
def State.inPort (s : State) (w : Width) (port : BitVec 16) : State :=
  let r := s.ioRead port w
  (r.2.setReg w .eax r.1).advance

/-- IN acc, Ib (R620). -/
def execInImm (w : Width) (port : Byte) (s : State) : Host.Outcome State Fault Refusal := .next (s.inPort w (port.setWidth 16))

/-- IN acc, DX (R622). -/
def execInDx (w : Width) (s : State) : Host.Outcome State Fault Refusal := .next (s.inPort w (s.reg .w16 .edx))

/-- OUT Ib, acc (R621). -/
def execOutImm (w : Width) (port : Byte) (s : State) : Host.Outcome State Fault Refusal :=
  .next (s.ioWrite (port.setWidth 16) w (s.reg w .eax)).advance

/-- OUT DX, acc (R623). -/
def execOutDx (w : Width) (s : State) : Host.Outcome State Fault Refusal :=
  .next (s.ioWrite (s.reg .w16 .edx) w (s.reg w .eax)).advance

/-- CLC (R630). -/
def execClc (s : State) : Host.Outcome State Fault Refusal := .next (s.setFlags { s.flags with cf := false }).advance

/-- STC (R631). -/
def execStc (s : State) : Host.Outcome State Fault Refusal := .next (s.setFlags { s.flags with cf := true }).advance

/-- CMC (R632). -/
def execCmc (s : State) : Host.Outcome State Fault Refusal := .next (s.setFlags { s.flags with cf := !s.flags.cf }).advance

/-- CLI (R633). -/
def execCli (s : State) : Host.Outcome State Fault Refusal := .next (s.setFlags { s.flags with ifl := false }).advance

/-- STI (R634). -/
def execSti (s : State) : Host.Outcome State Fault Refusal := .next (s.setFlags { s.flags with ifl := true }).advance

/-- CLD (R635). -/
def execCld (s : State) : Host.Outcome State Fault Refusal := .next (s.setFlags { s.flags with df := false }).advance

/-- STD (R636). -/
def execStd (s : State) : Host.Outcome State Fault Refusal := .next (s.setFlags { s.flags with df := true }).advance

/-- NOP (R637). -/
def execNop (s : State) : Host.Outcome State Fault Refusal := .next s.advance

/-- WAIT (R638). -/
def execWait (s : State) : Host.Outcome State Fault Refusal := .next s.advance

/-- HLT (R640). -/
def execHlt (s : State) : Host.Outcome State Fault Refusal :=
  finish (if s.flags.ifl then .ok (s.advance.setHalted true) else .error .haltWithInterruptsDisabled)

/-- MOV CRn, r32 (R650). -/
def execMovToCr (dst : CReg) (src : Reg) (s : State) : Host.Outcome State Fault Refusal :=
  .next (s.setCr dst (s.reg .w32 src)).advance

/-- MOV r32, CRn (R651). -/
def execMovFromCr (dst : Reg) (src : CReg) (s : State) : Host.Outcome State Fault Refusal :=
  .next (s.setReg .w32 dst (s.cr.get src)).advance

/-- LGDT (R655). -/
def execLgdt (os : Size) (src : MemRef) (s : State) : Host.Outcome State Fault Refusal :=
  finish do
    let v ← s.readTable os src
    .ok (s.setGdtr v).advance

/-- LIDT (R656). -/
def execLidt (os : Size) (src : MemRef) (s : State) : Host.Outcome State Fault Refusal :=
  finish do
    let v ← s.readTable os src
    .ok (s.setIdtr v).advance

/-- SGDT (R657). -/
def execSgdt (os : Size) (dst : MemRef) (s : State) : Host.Outcome State Fault Refusal :=
  finish do
    let t ← s.writeTable os dst s.gdtr
    .ok t.advance

/-- SIDT (R658). -/
def execSidt (os : Size) (dst : MemRef) (s : State) : Host.Outcome State Fault Refusal :=
  finish do
    let t ← s.writeTable os dst s.idtr
    .ok t.advance

/-- CR0 after LMSW: bits 3:1 from the operand, bit 0 set or kept (R659). -/
def lmswValue (cr0 : BitVec 32) (v : BitVec 16) : BitVec 32 :=
  cr0.extractLsb' 4 28 ++ v.extractLsb' 1 3 ++ (cr0.extractLsb' 0 1 ||| v.extractLsb' 0 1)

/-- LMSW (R659). -/
def execLmsw (src : Rm) (s : State) : Host.Outcome State Fault Refusal :=
  finish do
    let v ← s.readRm .w16 src
    .ok (s.setCr .cr0 (lmswValue s.cr.cr0 v)).advance

/-- SMSW: the upper half of a 32-bit register destination is `draw()` (R660). -/
def execSmsw (os : Size) (dst : Rm) (s : State) : Host.Outcome State Fault Refusal :=
  finish (
    let v := s.cr.cr0.setWidth 16
    match s.place dst, os with
    | .mem lin, _ => do
      let t ← s.memWrite .w16 lin v
      .ok t.advance
    | .reg r, .s16 => .ok (s.setReg .w16 r v).advance
    | .reg r, .s32 => .ok (s.setReg .w32 r ((Config.freeWord s.draws).extractLsb' 16 16 ++ v)).drawn.advance)

/-- CLTS (R661). -/
def execClts (s : State) : Host.Outcome State Fault Refusal :=
  .next (s.setCr .cr0 (s.cr.cr0 &&& 0xFFFFFFF7)).advance

/-- An invalid encoding: InvalidOpcode, with the bytes read so far (R260, R261, R703). -/
def execInvalid (_ : BadCode) (s : State) : Host.Outcome State Fault Refusal := .fault (.precise (.invalidOpcode s.cyc.bytes))

/-- An x87 escape: InvalidOpcode (R262, R703). -/
def execX87Escape (_ : Byte) (s : State) : Host.Outcome State Fault Refusal := .fault (.precise (.invalidOpcode s.cyc.bytes))

end Sys2Proof.Machine
end

