-- ==== Sys2Proof/Machine/Dispatch.lean ====
section
/-! DEFINITION. The one match from an instruction to its meaning. -/

namespace Sys2Proof.Machine

/-- Execute one decoded unit: an instruction, or a prefix byte. -/
def exec (i : Instr) (s : State) : Host.Outcome State Fault Refusal :=
  match i with
  -- prefix bytes
  | .prefixEs => Sys2Proof.Machine.execPrefixEs s
  | .prefixCs => Sys2Proof.Machine.execPrefixCs s
  | .prefixSs => Sys2Proof.Machine.execPrefixSs s
  | .prefixDs => Sys2Proof.Machine.execPrefixDs s
  | .prefixFs => Sys2Proof.Machine.execPrefixFs s
  | .prefixGs => Sys2Proof.Machine.execPrefixGs s
  | .prefixOpSize => Sys2Proof.Machine.execPrefixOpSize s
  | .prefixAddrSize => Sys2Proof.Machine.execPrefixAddrSize s
  | .prefixLock => Sys2Proof.Machine.execPrefixLock s
  | .prefixRepne => Sys2Proof.Machine.execPrefixRepne s
  | .prefixRep => Sys2Proof.Machine.execPrefixRep s
  -- arithmetic and logic, two operands
  | .add w dst src => Sys2Proof.Machine.execAdd w dst src s
  | .or w dst src => Sys2Proof.Machine.execOr w dst src s
  | .adc w dst src => Sys2Proof.Machine.execAdc w dst src s
  | .sbb w dst src => Sys2Proof.Machine.execSbb w dst src s
  | .and w dst src => Sys2Proof.Machine.execAnd w dst src s
  | .sub w dst src => Sys2Proof.Machine.execSub w dst src s
  | .xor w dst src => Sys2Proof.Machine.execXor w dst src s
  | .cmp w dst src => Sys2Proof.Machine.execCmp w dst src s
  | .test w dst src => Sys2Proof.Machine.execTest w dst src s
  -- one operand
  | .inc w dst => Sys2Proof.Machine.execInc w dst s
  | .dec w dst => Sys2Proof.Machine.execDec w dst s
  | .neg w dst => Sys2Proof.Machine.execNeg w dst s
  | .not w dst => Sys2Proof.Machine.execNot w dst s
  -- multiply and divide
  | .mul w src => Sys2Proof.Machine.execMul w src s
  | .imul w src => Sys2Proof.Machine.execImul w src s
  | .imulReg os dst src => Sys2Proof.Machine.execImulReg os dst src s
  | .imulImm os dst src imm => Sys2Proof.Machine.execImulImm os dst src imm s
  | .div w src => Sys2Proof.Machine.execDiv w src s
  | .idiv w src => Sys2Proof.Machine.execIdiv w src s
  -- decimal adjust
  | .daa => Sys2Proof.Machine.execDaa s
  | .das => Sys2Proof.Machine.execDas s
  | .aaa => Sys2Proof.Machine.execAaa s
  | .aas => Sys2Proof.Machine.execAas s
  | .aam base => Sys2Proof.Machine.execAam base s
  | .aad base => Sys2Proof.Machine.execAad base s
  -- shifts and rotates
  | .rol w dst count => Sys2Proof.Machine.execRol w dst count s
  | .ror w dst count => Sys2Proof.Machine.execRor w dst count s
  | .rcl w dst count => Sys2Proof.Machine.execRcl w dst count s
  | .rcr w dst count => Sys2Proof.Machine.execRcr w dst count s
  | .shl w dst count => Sys2Proof.Machine.execShl w dst count s
  | .shr w dst count => Sys2Proof.Machine.execShr w dst count s
  | .sar w dst count => Sys2Proof.Machine.execSar w dst count s
  | .shld os dst src count => Sys2Proof.Machine.execShld os dst src count s
  | .shrd os dst src count => Sys2Proof.Machine.execShrd os dst src count s
  -- bit test and scan
  | .bt os dst off => Sys2Proof.Machine.execBt os dst off s
  | .bts os dst off => Sys2Proof.Machine.execBts os dst off s
  | .btr os dst off => Sys2Proof.Machine.execBtr os dst off s
  | .btc os dst off => Sys2Proof.Machine.execBtc os dst off s
  | .bsf os dst src => Sys2Proof.Machine.execBsf os dst src s
  | .bsr os dst src => Sys2Proof.Machine.execBsr os dst src s
  -- moves
  | .mov w dst src => Sys2Proof.Machine.execMov w dst src s
  | .movAccMoffs w src => Sys2Proof.Machine.execMovAccMoffs w src s
  | .movMoffsAcc w dst => Sys2Proof.Machine.execMovMoffsAcc w dst s
  | .movFromSeg os dst src => Sys2Proof.Machine.execMovFromSeg os dst src s
  | .movToSeg dst src => Sys2Proof.Machine.execMovToSeg dst src s
  | .movFromCr dst src => Sys2Proof.Machine.execMovFromCr dst src s
  | .movToCr dst src => Sys2Proof.Machine.execMovToCr dst src s
  | .xchg w op1 op2 => Sys2Proof.Machine.execXchg w op1 op2 s
  | .lea os dst src => Sys2Proof.Machine.execLea os dst src s
  | .movzxByte os dst src => Sys2Proof.Machine.execMovzxByte os dst src s
  | .movzxWord os dst src => Sys2Proof.Machine.execMovzxWord os dst src s
  | .movsxByte os dst src => Sys2Proof.Machine.execMovsxByte os dst src s
  | .movsxWord os dst src => Sys2Proof.Machine.execMovsxWord os dst src s
  -- far-pointer loads
  | .lds os dst src => Sys2Proof.Machine.execLds os dst src s
  | .les os dst src => Sys2Proof.Machine.execLes os dst src s
  | .lss os dst src => Sys2Proof.Machine.execLss os dst src s
  | .lfs os dst src => Sys2Proof.Machine.execLfs os dst src s
  | .lgs os dst src => Sys2Proof.Machine.execLgs os dst src s
  -- conversions and accumulator moves
  | .cbw os => Sys2Proof.Machine.execCbw os s
  | .cwd os => Sys2Proof.Machine.execCwd os s
  | .lahf => Sys2Proof.Machine.execLahf s
  | .sahf => Sys2Proof.Machine.execSahf s
  | .xlat as seg => Sys2Proof.Machine.execXlat as seg s
  -- SETcc
  | .seto dst => Sys2Proof.Machine.execSeto dst s
  | .setno dst => Sys2Proof.Machine.execSetno dst s
  | .setb dst => Sys2Proof.Machine.execSetb dst s
  | .setae dst => Sys2Proof.Machine.execSetae dst s
  | .sete dst => Sys2Proof.Machine.execSete dst s
  | .setne dst => Sys2Proof.Machine.execSetne dst s
  | .setbe dst => Sys2Proof.Machine.execSetbe dst s
  | .seta dst => Sys2Proof.Machine.execSeta dst s
  | .sets dst => Sys2Proof.Machine.execSets dst s
  | .setns dst => Sys2Proof.Machine.execSetns dst s
  | .setp dst => Sys2Proof.Machine.execSetp dst s
  | .setnp dst => Sys2Proof.Machine.execSetnp dst s
  | .setl dst => Sys2Proof.Machine.execSetl dst s
  | .setge dst => Sys2Proof.Machine.execSetge dst s
  | .setle dst => Sys2Proof.Machine.execSetle dst s
  | .setg dst => Sys2Proof.Machine.execSetg dst s
  -- stack
  | .push os src => Sys2Proof.Machine.execPush os src s
  | .pushImm os imm => Sys2Proof.Machine.execPushImm os imm s
  | .pushEs os => Sys2Proof.Machine.execPushEs os s
  | .pushCs os => Sys2Proof.Machine.execPushCs os s
  | .pushSs os => Sys2Proof.Machine.execPushSs os s
  | .pushDs os => Sys2Proof.Machine.execPushDs os s
  | .pushFs os => Sys2Proof.Machine.execPushFs os s
  | .pushGs os => Sys2Proof.Machine.execPushGs os s
  | .pop os dst => Sys2Proof.Machine.execPop os dst s
  | .popRm os dst => Sys2Proof.Machine.execPopRm os dst s
  | .popEs os => Sys2Proof.Machine.execPopEs os s
  | .popSs os => Sys2Proof.Machine.execPopSs os s
  | .popDs os => Sys2Proof.Machine.execPopDs os s
  | .popFs os => Sys2Proof.Machine.execPopFs os s
  | .popGs os => Sys2Proof.Machine.execPopGs os s
  | .pusha os => Sys2Proof.Machine.execPusha os s
  | .popa os => Sys2Proof.Machine.execPopa os s
  | .pushf os => Sys2Proof.Machine.execPushf os s
  | .popf => Sys2Proof.Machine.execPopf s
  | .popfd => Sys2Proof.Machine.execPopfd s
  | .enter os alloc level => Sys2Proof.Machine.execEnter os alloc level s
  | .leave os => Sys2Proof.Machine.execLeave os s
  -- conditional branches and loops
  | .jo os rel => Sys2Proof.Machine.execJo os rel s
  | .jno os rel => Sys2Proof.Machine.execJno os rel s
  | .jb os rel => Sys2Proof.Machine.execJb os rel s
  | .jae os rel => Sys2Proof.Machine.execJae os rel s
  | .je os rel => Sys2Proof.Machine.execJe os rel s
  | .jne os rel => Sys2Proof.Machine.execJne os rel s
  | .jbe os rel => Sys2Proof.Machine.execJbe os rel s
  | .ja os rel => Sys2Proof.Machine.execJa os rel s
  | .js os rel => Sys2Proof.Machine.execJs os rel s
  | .jns os rel => Sys2Proof.Machine.execJns os rel s
  | .jp os rel => Sys2Proof.Machine.execJp os rel s
  | .jnp os rel => Sys2Proof.Machine.execJnp os rel s
  | .jl os rel => Sys2Proof.Machine.execJl os rel s
  | .jge os rel => Sys2Proof.Machine.execJge os rel s
  | .jle os rel => Sys2Proof.Machine.execJle os rel s
  | .jg os rel => Sys2Proof.Machine.execJg os rel s
  | .jcxz os as rel => Sys2Proof.Machine.execJcxz os as rel s
  | .loop os as rel => Sys2Proof.Machine.execLoop os as rel s
  | .loope os as rel => Sys2Proof.Machine.execLoope os as rel s
  | .loopne os as rel => Sys2Proof.Machine.execLoopne os as rel s
  -- jumps, calls, returns
  | .jmpRel os rel => Sys2Proof.Machine.execJmpRel os rel s
  | .jmpInd os src => Sys2Proof.Machine.execJmpInd os src s
  | .jmpFar os off sel => Sys2Proof.Machine.execJmpFar os off sel s
  | .jmpFarInd os src => Sys2Proof.Machine.execJmpFarInd os src s
  | .callRel os rel => Sys2Proof.Machine.execCallRel os rel s
  | .callInd os src => Sys2Proof.Machine.execCallInd os src s
  | .callFar os off sel => Sys2Proof.Machine.execCallFar os off sel s
  | .callFarInd os src => Sys2Proof.Machine.execCallFarInd os src s
  | .ret os => Sys2Proof.Machine.execRet os s
  | .retImm os imm => Sys2Proof.Machine.execRetImm os imm s
  | .retf os => Sys2Proof.Machine.execRetf os s
  | .retfImm os imm => Sys2Proof.Machine.execRetfImm os imm s
  -- software interrupts and interrupt return
  | .int vector => Sys2Proof.Machine.execInt vector s
  | .int3 => Sys2Proof.Machine.execInt3 s
  | .into => Sys2Proof.Machine.execInto s
  | .iret os => Sys2Proof.Machine.execIret os s
  -- strings
  | .movsb as seg rep => Sys2Proof.Machine.execMovsb as seg rep s
  | .movsw os as seg rep => Sys2Proof.Machine.execMovsw os as seg rep s
  | .cmpsb as seg rep => Sys2Proof.Machine.execCmpsb as seg rep s
  | .cmpsw os as seg rep => Sys2Proof.Machine.execCmpsw os as seg rep s
  | .stosb as rep => Sys2Proof.Machine.execStosb as rep s
  | .stosw os as rep => Sys2Proof.Machine.execStosw os as rep s
  | .lodsb as seg rep => Sys2Proof.Machine.execLodsb as seg rep s
  | .lodsw os as seg rep => Sys2Proof.Machine.execLodsw os as seg rep s
  | .scasb as rep => Sys2Proof.Machine.execScasb as rep s
  | .scasw os as rep => Sys2Proof.Machine.execScasw os as rep s
  | .insb as rep => Sys2Proof.Machine.execInsb as rep s
  | .insw os as rep => Sys2Proof.Machine.execInsw os as rep s
  | .outsb as seg rep => Sys2Proof.Machine.execOutsb as seg rep s
  | .outsw os as seg rep => Sys2Proof.Machine.execOutsw os as seg rep s
  -- port I/O
  | .inImm w port => Sys2Proof.Machine.execInImm w port s
  | .inDx w => Sys2Proof.Machine.execInDx w s
  | .outImm w port => Sys2Proof.Machine.execOutImm w port s
  | .outDx w => Sys2Proof.Machine.execOutDx w s
  -- flag control
  | .clc => Sys2Proof.Machine.execClc s
  | .stc => Sys2Proof.Machine.execStc s
  | .cmc => Sys2Proof.Machine.execCmc s
  | .cli => Sys2Proof.Machine.execCli s
  | .sti => Sys2Proof.Machine.execSti s
  | .cld => Sys2Proof.Machine.execCld s
  | .std => Sys2Proof.Machine.execStd s
  -- no-operations and halt
  | .nop => Sys2Proof.Machine.execNop s
  | .wait => Sys2Proof.Machine.execWait s
  | .hlt => Sys2Proof.Machine.execHlt s
  -- system registers
  | .lgdt os src => Sys2Proof.Machine.execLgdt os src s
  | .lidt os src => Sys2Proof.Machine.execLidt os src s
  | .sgdt os dst => Sys2Proof.Machine.execSgdt os dst s
  | .sidt os dst => Sys2Proof.Machine.execSidt os dst s
  | .lmsw src => Sys2Proof.Machine.execLmsw src s
  | .smsw os dst => Sys2Proof.Machine.execSmsw os dst s
  | .clts => Sys2Proof.Machine.execClts s
  -- invalid encodings
  | .invalid code => Sys2Proof.Machine.execInvalid code s
  | .x87Escape op => Sys2Proof.Machine.execX87Escape op s

end Sys2Proof.Machine
end

