-- ==== Sys2Proof/Machine/Cycle.lean ====
section
/-! DEFINITION. Fetching (R138, R201, R202, R206), the loop over the units of one instruction, and the cycle (R200). -/

namespace Sys2Proof.Machine

/-- The offset of byte k of the instruction at EIP (R138). -/
def State.fetchOffset (s : State) (k : Nat) : BitVec 32 := truncTo s.codeSize (s.eip + BitVec.ofNat 32 k)

/-- Fetch byte k: the limit check in protected mode, then the read (R138). -/
def State.fetchByte (s : State) (k : Nat) : Except FaultKind Byte :=
  if s.mode = .prot ∧ s.segs.cs.desc.limit < s.fetchOffset k then .error (.generalProtection (.offset (s.fetchOffset k)))
  else s.memRead .w8 (s.linear .cs (s.fetchOffset k))

/-- The bytes from byte k on, at most n of them, that can be fetched, and the fault of the first that cannot. -/
def State.fetchFrom (s : State) (k : Nat) : Nat → List Byte × Option FaultKind
  | 0 => ([], none)
  | n + 1 =>
    match s.fetchByte k with
    | .error e => ([], some e)
    | .ok b => (b :: (s.fetchFrom (k + 1) n).1, (s.fetchFrom (k + 1) n).2)

/-- The bytes that the decoder can have, at most 15. Fetching has no side effect, so the decoder may be given more than it
needs; log 7. -/
def State.window (s : State) : List Byte := (s.fetchFrom 0 maxLength).1

/-- The fault of needing one byte more than the window holds: a fetch fault, or InvalidOpcode at the sixteenth byte (R202,
R206). -/
def State.windowFault (s : State) : FaultKind :=
  match (s.fetchFrom 0 maxLength).2 with
  | some e => e
  | none => .invalidOpcode s.window

/-- The end of the cycle of an instruction that completed. -/
def endOutcome : Host.Outcome State Fault Refusal → Host.Outcome State Fault Refusal
  | .next t => .next t.endCycle
  | .fault f => .fault f
  | .refused r => .refused r

/-- Decode and execute unit after unit, at most n: prefix bytes, then the instruction (R201, R210, R211). `k` is the fault of
needing a byte more than `bs` holds. -/
def runUnits (k : FaultKind) : Nat → List Byte → State → Host.Outcome State Fault Refusal
  | 0, _, _ => .fault (.precise k)
  | n + 1, bs, s =>
    match decode s.cyc.csz s.cyc.pfx bs with
    | none => .fault (.precise k)
    | some (i, rest) =>
      let t := s.readUnit (bs.take (bs.length - rest.length))
      if i.isPrefix then
        match exec i t with
        | .next u => runUnits k n rest u
        | .fault f => .fault f
        | .refused r => .refused r
      else endOutcome (exec i t)

/-- `Cycle()` (R200): deliver a latched interrupt, or do nothing while halted, or execute one instruction. -/
def cycle (s : State) : Host.Outcome State Fault Refusal :=
  if s.deliverable then finish s.deliverLatched
  else if s.halted then .next s
  else runUnits s.windowFault maxLength s.window s.startCycle

/-- Bytes put at the offsets from EIP + k on, in CS. -/
def State.placeCode (s : State) (k : Nat) : List Byte → State
  | [] => s
  | b :: bs => (s.setByteAt (s.linear .cs (s.fetchOffset k)) b).placeCode (k + 1) bs

/-- The state with nothing that would keep the next cycle from fetching: no interrupt pending, not halted. -/
def State.readyToFetch (s : State) : State := ((s.setLatch { s.latch with pending := false }).setHalted false).endCycle

end Sys2Proof.Machine
end

