-- ==== Sys2Proof/Machine/Step.lean ====
section
/-! DEFINITION. The step of the machine, one cycle, and how a table word is placed where the next cycle fetches. -/

namespace Sys2Proof.Machine

/-- One step is one `Cycle()` (R200, R740). -/
def step (s : State) : Host.Outcome State Fault Refusal := Sys2Proof.Machine.cycle s

/-- The state with an instruction stored at CS:EIP, so that the next step fetches and runs it. Log 10. -/
def State.withFetchWord (s : State) (nbits w : Nat) : State := s.readyToFetch.placeCode 0 (tableBytes nbits w)

end Sys2Proof.Machine
end

