-- ==== Sys2Proof/WellFormed.lean ====
section
/-! DEFINITION. Which instructions the decoder can give, in code of size csz after the prefixes p. -/

namespace Sys2Proof

/-- A displacement is there where a base of BP or EBP needs one (R222, R223). -/
def Disp.present {n : Nat} : Disp n → Bool
  | .none => false
  | _ => true

/-- A displacement has the full n bits, as an address with no base needs (R222, R223, R224). -/
def Disp.isFull {n : Nat} : Disp n → Bool
  | .full _ => true
  | _ => false

/-- An effective address that ModRM and SIB can express (R222 to R224). -/
def Ea.wf : Ea → Bool
  | .a16 .abs d => d.isFull
  | .a16 .bp d => d.present
  | .a16 _ _ => true
  | .a32 b i d =>
    (match i with
      | some (.esp, _) => false
      | _ => true) &&
    (match b with
      | none => d.isFull
      | some .ebp => d.present
      | some _ => true)

/-- A memory operand with the address size, and the segment, that the prefixes give (R141, R212, R214). -/
def MemRef.wf (csz : Size) (p : Prefixes) (m : MemRef) : Bool :=
  m.ea.wf && decide (m.ea.size = p.as csz) && decide (m.seg = p.segOr m.ea.defaultSeg)

/-- An E operand. -/
def Rm.wf (csz : Size) (p : Prefixes) : Rm → Bool
  | .reg _ => true
  | .mem m => m.wf csz p

/-- An immediate that fits its width (R233). -/
def immFits (w : Width) (v : BitVec 32) : Bool := decide ((v.setWidth w.bits).setWidth 32 = v)

/-- An offset that fits its size (R235, R236). -/
def offFits (sz : Size) (v : BitVec 32) : Bool := immFits sz.width v

/-- A Jz displacement: sign-extended from 16 bits when OS is 16 (R234). -/
def jzFits (os : Size) (v : BitVec 32) : Bool := decide ((v.setWidth os.width.bits).signExtend 32 = v)

/-- A width that the opcode's bit 0 can give: 8 or OS (R241). -/
def widthOk (csz : Size) (p : Prefixes) (w : Width) : Bool := decide (w = .w8) || decide (w = (p.os csz).width)

/-- An operand size (R213). -/
def osOk (csz : Size) (p : Prefixes) (os : Size) : Bool := decide (os = p.os csz)

/-- An address size (R214). -/
def asOk (csz : Size) (p : Prefixes) (as : Size) : Bool := decide (as = p.as csz)

/-- A source segment whose default is DS (R212, R226). -/
def segOk (p : Prefixes) (s : SegReg) : Bool := decide (s = p.segOr .ds)

/-- Destination and source of a two-operand instruction: not both memory, and an immediate fits (R230, R252). -/
def pairOk (csz : Size) (p : Prefixes) (w : Width) (dst : Rm) : Operand → Bool
  | .rm (.reg _) => widthOk csz p w && dst.wf csz p
  | .imm v => widthOk csz p w && dst.wf csz p && immFits w v
  | .rm (.mem m) =>
    widthOk csz p w && m.wf csz p &&
      (match dst with
        | .reg _ => true
        | .mem _ => false)

/-- A relative displacement (R234). -/
def Rel.wf (os : Size) : Rel → Bool
  | .short _ => true
  | .near d => jzFits os d

/-- A direct memory offset (R236). -/
def Moffs.wf (csz : Size) (p : Prefixes) (m : Moffs) : Bool :=
  asOk csz p m.size && segOk p m.seg && offFits m.size m.off

/-- A REP flag that the prefixes give (R215). -/
def repOk (p : Prefixes) (r : Bool) : Bool := decide (r = p.isRep)

/-- A REPE or REPNE that the prefixes give (R215). -/
def cmpRepOk (p : Prefixes) (r : CmpRep) : Bool := decide (r = p.cmpRep)

/-- The bytes of an invalid encoding are invalid (R260, R261). -/
def BadCode.wf : BadCode → Bool
  | .one b => badOp1 b
  | .two b => !goodOp2 b
  | .oneModRM b m => badModRM1 b m
  | .twoModRM b m => badModRM2 b m

/-- A double shift's count: Ib or CL, never the constant 1 (R480, R481). -/
def ShiftCount.doubleOk : ShiftCount → Bool
  | .one => false
  | _ => true

/-- Instructions the decoder can give. -/
def Instr.wf (csz : Size) (p : Prefixes) : Instr → Bool
  | .add w d s | .or w d s | .adc w d s | .sbb w d s | .and w d s | .sub w d s | .xor w d s | .cmp w d s | .mov w d s =>
    pairOk csz p w d s
  | .test w d s =>
    pairOk csz p w d s &&
      (match s with
        | .rm (.mem _) => false
        | _ => true)
  | .inc w e | .dec w e | .neg w e | .not w e | .mul w e | .imul w e | .div w e | .idiv w e
  | .rol w e _ | .ror w e _ | .rcl w e _ | .rcr w e _ | .shl w e _ | .shr w e _ | .sar w e _ | .xchg w e _ =>
    widthOk csz p w && e.wf csz p
  | .imulReg os _ e | .bsf os _ e | .bsr os _ e | .movzxByte os _ e | .movzxWord os _ e | .movsxByte os _ e
  | .movsxWord os _ e | .bt os e _ | .bts os e _ | .btr os e _ | .btc os e _ | .movFromSeg os e _ | .push os e
  | .popRm os e | .jmpInd os e | .callInd os e | .smsw os e => osOk csz p os && e.wf csz p
  | .imulImm os _ e v => osOk csz p os && e.wf csz p && immFits os.width v
  | .shld os e _ c | .shrd os e _ c => osOk csz p os && e.wf csz p && c.doubleOk
  | .movAccMoffs w m | .movMoffsAcc w m => widthOk csz p w && m.wf csz p
  | .movToSeg s e => decide (s ≠ .cs) && e.wf csz p
  | .lmsw e => e.wf csz p
  | .lea os _ ea => osOk csz p os && ea.wf && decide (ea.size = p.as csz)
  | .lds os _ m | .les os _ m | .lss os _ m | .lfs os _ m | .lgs os _ m | .jmpFarInd os m | .callFarInd os m
  | .lgdt os m | .lidt os m | .sgdt os m | .sidt os m => osOk csz p os && m.wf csz p
  | .seto e | .setno e | .setb e | .setae e | .sete e | .setne e | .setbe e | .seta e | .sets e | .setns e | .setp e
  | .setnp e | .setl e | .setge e | .setle e | .setg e => e.wf csz p
  | .cbw os | .cwd os | .pushEs os | .pushCs os | .pushSs os | .pushDs os | .pushFs os | .pushGs os | .pop os _
  | .popEs os | .popSs os | .popDs os | .popFs os | .popGs os | .pusha os | .popa os | .pushf os | .enter os _ _
  | .leave os | .ret os | .retImm os _ | .retf os | .retfImm os _ | .iret os => osOk csz p os
  | .popf => osOk csz p .s16
  | .popfd => osOk csz p .s32
  | .pushImm os v => osOk csz p os && immFits os.width v
  | .jo os t | .jno os t | .jb os t | .jae os t | .je os t | .jne os t | .jbe os t | .ja os t | .js os t | .jns os t
  | .jp os t | .jnp os t | .jl os t | .jge os t | .jle os t | .jg os t | .jmpRel os t => osOk csz p os && t.wf os
  | .callRel os d => osOk csz p os && jzFits os d
  | .jcxz os as _ | .loop os as _ | .loope os as _ | .loopne os as _ => osOk csz p os && asOk csz p as
  | .jmpFar os off _ | .callFar os off _ => osOk csz p os && offFits os off
  | .xlat as s => asOk csz p as && segOk p s
  | .movsb as s r | .lodsb as s r | .outsb as s r => asOk csz p as && segOk p s && repOk p r
  | .movsw os as s r | .lodsw os as s r | .outsw os as s r =>
    osOk csz p os && asOk csz p as && segOk p s && repOk p r
  | .cmpsb as s r => asOk csz p as && segOk p s && cmpRepOk p r
  | .cmpsw os as s r => osOk csz p os && asOk csz p as && segOk p s && cmpRepOk p r
  | .stosb as r | .insb as r => asOk csz p as && repOk p r
  | .stosw os as r | .insw os as r => osOk csz p os && asOk csz p as && repOk p r
  | .scasb as r => asOk csz p as && cmpRepOk p r
  | .scasw os as r => osOk csz p os && asOk csz p as && cmpRepOk p r
  | .inImm w _ | .inDx w | .outImm w _ | .outDx w => widthOk csz p w
  | .invalid c => c.wf
  | .x87Escape b => isX87 b
  | .prefixEs | .prefixCs | .prefixSs | .prefixDs | .prefixFs | .prefixGs | .prefixOpSize | .prefixAddrSize | .prefixLock
  | .prefixRepne | .prefixRep | .daa | .das | .aaa | .aas | .aam _ | .aad _ | .movFromCr _ _ | .movToCr _ _ | .lahf | .sahf
  | .int _ | .int3 | .into | .clc | .stc | .cmc | .cli | .sti | .cld | .std | .nop | .wait | .hlt | .clts => true

end Sys2Proof
end

