-- ==== Sys2Proof/Safety.lean ====
section
/-! DEFINITION. The terms claims use: which accesses are inside memory and what they leave, what each instruction may write, the
invariant of the machine, and what a prefix adds. -/

namespace Sys2Proof.Machine

/-! ## Accesses inside memory (R121, R370) -/

/-- Every byte of an access is below P_MEM_SIZE (R121). -/
def State.mapped (s : State) (lin : BitVec 32) (n : Nat) : Bool :=
  (List.range n).all fun k => decide ((lin + BitVec.ofNat 32 k).toNat < s.params.memSize)

/-- A place can be read and written at a width: a register always, memory where it is inside P_MEM_SIZE. -/
def State.placeOk (s : State) (w : Width) : Place → Bool
  | .reg _ => true
  | .mem lin => s.mapped lin w.bytes

/-- A source operand can be read. -/
def State.operandOk (s : State) (w : Width) : Operand → Bool
  | .rm x => s.placeOk w (s.place x)
  | .imm _ => true

/-- What a place holds. -/
def State.valueAt (s : State) (w : Width) : Place → BitVec w.bits
  | .reg r => s.reg w r
  | .mem lin => s.load lin w

/-- The value of a source operand. -/
def State.operandValue (s : State) (w : Width) : Operand → BitVec w.bits
  | .rm x => s.valueAt w (s.place x)
  | .imm v => v.setWidth w.bits

/-- The state after a value is put into a place. -/
def State.wrote (s : State) (w : Width) (p : Place) (v : BitVec w.bits) : State :=
  match p with
  | .reg r => s.setReg w r v
  | .mem lin => s.store lin w v

/-- The linear address of the k-th stack slot below the stack pointer, slots of a size (R370). -/
def State.slot (s : State) (n : Size) (k : Nat) : BitVec 32 :=
  s.linear .ss (truncTo s.sw (s.sp - BitVec.ofNat 32 (k * n.width.bytes)))

/-- The k-th push from here is inside memory. -/
def State.slotOk (s : State) (n : Size) (k : Nat) : Bool := s.mapped (s.slot n k) n.width.bytes

/-- The state after a push (R370). -/
def State.pushed (s : State) (n : Size) (v : BitVec n.width.bits) : State :=
  (s.setSp (s.sp - sizeStep n)).store (s.slot n 1) n.width v

/-- The linear address of the top of the stack (R370). -/
def State.top (s : State) : BitVec 32 := s.linear .ss s.sp

/-- A pop is inside memory. -/
def State.popOk (s : State) (n : Size) : Bool := s.mapped s.top n.width.bytes

/-- The value a pop answers (R370). -/
def State.popValue (s : State) (n : Size) : BitVec n.width.bits := s.load s.top n.width

/-- The state after a pop (R370). -/
def State.popped (s : State) (n : Size) : State := s.setSp (s.sp + sizeStep n)

/-- The linear address of the k-th stack slot from the top upwards, slots of a size (R370). -/
def State.upSlot (s : State) (n : Size) (k : Nat) : BitVec 32 :=
  s.linear .ss (truncTo s.sw (s.sp + BitVec.ofNat 32 (k * n.width.bytes)))

/-- The k-th pop from here is inside memory, k counted from 0. -/
def State.upSlotOk (s : State) (n : Size) (k : Nat) : Bool := s.mapped (s.upSlot n k) n.width.bytes

/-- A selector can be loaded into a segment register (R131, R132, R136, R137). -/
def State.selectorOk (s : State) (r : SegReg) (v : BitVec 16) : Bool :=
  match s.mode with
  | .real => true
  | .prot =>
    !(decide (r = .cs) && decide (v.extractLsb' 3 13 = 0)) &&
      decide ((gdtOffset v).toNat + 7 ≤ s.gdtr.limit.toNat) && s.mapped (s.gdtr.base + gdtOffset v) 8

/-- What a segment register holds after a selector is loaded (R131, R132, R133). -/
def State.segmentFor (s : State) (r : SegReg) (v : BitVec 16) : Segment :=
  match s.mode with
  | .real => realSegment r v
  | .prot =>
    ⟨v, decodeDescriptor (s.load (s.gdtr.base + gdtOffset v + 4) .w32 ++ s.load (s.gdtr.base + gdtOffset v) .w32)⟩

/-- The state after a far transfer (R529). -/
def State.transferred (s : State) (sel : BitVec 16) (off : BitVec 32) : State :=
  let t := s.setSeg .cs (s.segmentFor .cs sel)
  t.setEip (truncTo t.codeSize off)

/-- The state after the three pushes of a delivery, in the sampled mode, with IF, TF and AC cleared (R722). -/
def State.frameBuilt (s : State) (ret : BitVec 32) : State :=
  let m := s.sampleMode
  let t := ((m.pushed .s16 (m.flags.toWord.setWidth 16)).pushed .s16 m.segs.cs.sel).pushed .s16 (ret.setWidth 16)
  t.setFlags { t.flags with ifl := false, tf := false, ac := false }

/-- The selector in IVT entry v, as the delivery reads it: after its pushes (R722). -/
def State.handlerSel (s : State) (v : BitVec 8) (ret : BitVec 32) : BitVec 16 :=
  (s.frameBuilt ret).load (ivtEntry v + 2) .w16

/-- The offset in IVT entry v, as the delivery reads it. -/
def State.handlerOff (s : State) (v : BitVec 8) (ret : BitVec 32) : BitVec 16 := (s.frameBuilt ret).load (ivtEntry v) .w16

/-- A delivery does not fault: its three slots and the IVT entry are inside memory, and CS can take the selector. -/
def State.deliverOk (s : State) (v : BitVec 8) (ret : BitVec 32) : Bool :=
  s.sampleMode.slotOk .s16 1 && s.sampleMode.slotOk .s16 2 && s.sampleMode.slotOk .s16 3 && s.mapped (ivtEntry v) 4
    && (s.frameBuilt ret).selectorOk .cs (s.handlerSel v ret)

/-- The state after a delivery (R722). -/
def State.delivered (s : State) (v : BitVec 8) (ret : BitVec 32) : State :=
  let t := s.frameBuilt ret
  (t.setSeg .cs (t.segmentFor .cs (s.handlerSel v ret))).setEip ((s.handlerOff v ret).setWidth 32)

/-- What repeating a string instruction means (R580, R581), `once` being one iteration and the advance, `rep` the repeated form:
no iteration with count 0; else an iteration, the count stepped down, and the rest, unless `stop` says to end; and a faulting
iteration leaves the state before it. -/
def Repeats (once rep : State → Host.Outcome State Fault Refusal) (as : Size) (stop : Flags → Bool) : Prop :=
  ∀ s : State,
    (s.count as = 0 → rep s = .next s.advance) ∧
    (∀ t, s.count as ≠ 0 → once s = .next t →
      rep s = if stop t.flags then .next (t.decCount as) else rep ((t.setEip s.eip).decCount as)) ∧
    (∀ k, s.count as ≠ 0 → once s = .fault (.precise k) → rep s = .fault (.inRepetition k s.endCycle))

/-- The offset and the selector of a far pointer in memory are inside memory (R237). -/
def State.farOk (s : State) (os : Size) (m : MemRef) : Bool :=
  s.mapped (s.memAddr m) os.width.bytes && s.mapped (s.memAddrPlus m (sizeStep os)) 2

/-- The offset of a far pointer in memory, zero-extended (R237). -/
def State.farOff (s : State) (os : Size) (m : MemRef) : BitVec 32 := (s.load (s.memAddr m) os.width).setWidth 32

/-- The selector of a far pointer in memory (R237). -/
def State.farSel (s : State) (os : Size) (m : MemRef) : BitVec 16 := s.load (s.memAddrPlus m (sizeStep os)) .w16

/-- A pseudo-descriptor is inside memory (R238). -/
def State.tableOk (s : State) (m : MemRef) : Bool := s.mapped (s.memAddr m) 2 && s.mapped (s.memAddrPlus m 2) 4

/-- No interrupt is delivered at the start of a cycle (R200 step 1, R720): none is latched, or P_IRQ_MASKED_BY_IF holds and IF is
0. -/
abbrev State.NoDelivery (s : State) : Prop :=
  s.latch.pending = false ∨ (s.params.irqMaskedByIf = true ∧ s.flags.ifl = false)

/-! ## The invariant -/

/-- Every listed address of a memory is below a bound. -/
def Memory.below (n : Nat) (m : Memory) : Bool := m.all fun c => decide (c.1 < n)

/-- What holds between cycles: P_MEM_SIZE in its range (R12), nothing transient (R99), memory canonical and below P_MEM_SIZE (R120),
halted only with IF = 1 (R721), and VM clear (R68). -/
abbrev State.Inv (s : State) : Prop :=
  s.params.Legal ∧ s.cyc = .empty ∧ s.mem.wf = true ∧ Memory.below s.params.memSize s.mem = true ∧ (s.halted = true → s.flags.ifl = true)
    ∧ s.flags.vm = false

/-! ## Flags, places and stored bytes -/

/-- One status flag. -/
def Flags.get (f : Flags) : StatusFlag → Bool
  | .cf => f.cf
  | .pf => f.pf
  | .af => f.af
  | .zf => f.zf
  | .sf => f.sf
  | .ofl => f.ofl

/-- The bytes stored to by a write of a place: address and number. -/
def Place.bytes (w : Width) : Place → List (BitVec 32 × Nat)
  | .reg _ => []
  | .mem lin => [(lin, w.bytes)]

/-- The bytes of the first k pushes from a state. -/
def State.slots (s : State) (n : Size) (k : Nat) : List (BitVec 32 × Nat) :=
  (List.range k).map fun j => (s.slot n (j + 1), n.width.bytes)

/-- The linear address of the destination element of iteration j, counted from 0 (R582). -/
def State.dstAt (s : State) (as : Size) (w : Width) (j : Nat) : BitVec 32 :=
  let d := BitVec.ofNat 32 (j * w.bytes)
  s.linear .es (truncTo as (if s.flags.df then s.index as .edi - d else s.index as .edi + d))

/-- The bytes that a storing string instruction stores to: one element, or one for each iteration. -/
def State.elements (s : State) (as : Size) (w : Width) (rep : Bool) : List (BitVec 32 × Nat) :=
  (List.range (if rep then (s.count as).toNat else 1)).map fun j => (s.dstAt as w j, w.bytes)

/-- The number of pushes of ENTER (R385). -/
def enterPushes (level : Byte) : Nat := 1 + level.toNat % 32

/-- An address is outside all of some stored bytes. -/
def Outside (a : BitVec 32) (l : List (BitVec 32 × Nat)) : Prop := ∀ p ∈ l, ∀ k < p.2, a ≠ p.1 + BitVec.ofNat 32 k

end Sys2Proof.Machine

namespace Sys2Proof

open Sys2Proof.Machine

/-! ## What each instruction may write -/

/-- The general register that a view of a width belongs to (R52 to R54). -/
def Reg.home (w : Width) (r : Reg) : Reg :=
  match w with
  | .w8 => Reg.byteHome r
  | _ => r

/-- The general register that an E operand of a width belongs to, if it is a register. -/
def Rm.homes (w : Width) : Rm → List Reg
  | .reg r => [Reg.home w r]
  | .mem _ => []

/-- The count register, where an instruction repeats. -/
def repHomes (rep : Bool) : List Reg := if rep then [.ecx] else []

/-- Every general register that an instruction may write, in whole or in part. -/
def Instr.regsWritten : Instr → List Reg
  | .add w d _ | .or w d _ | .adc w d _ | .sbb w d _ | .and w d _ | .sub w d _ | .xor w d _ | .mov w d _
  | .inc w d | .dec w d | .neg w d | .not w d
  | .rol w d _ | .ror w d _ | .rcl w d _ | .rcr w d _ | .shl w d _ | .shr w d _ | .sar w d _ => d.homes w
  | .mul w _ | .imul w _ | .div w _ | .idiv w _ => [.eax, (highReg w).home w]
  | .imulReg _ g _ | .imulImm _ g _ _ | .bsf _ g _ | .bsr _ g _ | .movFromCr g _ | .lea _ g _ | .movzxByte _ g _
  | .movzxWord _ g _ | .movsxByte _ g _ | .movsxWord _ g _ | .lds _ g _ | .les _ g _ | .lss _ g _ | .lfs _ g _
  | .lgs _ g _ => [g]
  | .daa | .das | .aaa | .aas | .aam _ | .aad _ | .movAccMoffs _ _ | .cbw _ | .lahf | .xlat _ _ | .inImm _ _
  | .inDx _ => [.eax]
  | .shld os d _ _ | .shrd os d _ _ | .bts os d _ | .btr os d _ | .btc os d _ | .movFromSeg os d _ | .smsw os d =>
    d.homes os.width
  | .xchg w d g => g.home w :: d.homes w
  | .cwd _ => [.edx]
  | .seto d | .setno d | .setb d | .setae d | .sete d | .setne d | .setbe d | .seta d | .sets d | .setns d | .setp d
  | .setnp d | .setl d | .setge d | .setle d | .setg d => d.homes .w8
  | .push _ _ | .pushImm _ _ | .pushEs _ | .pushCs _ | .pushSs _ | .pushDs _ | .pushFs _ | .pushGs _ | .popEs _ | .popSs _
  | .popDs _ | .popFs _ | .popGs _ | .pusha _ | .pushf _ | .popf | .popfd | .callRel _ _ | .callInd _ _ | .callFar _ _ _
  | .callFarInd _ _ | .ret _ | .retImm _ _ | .retf _ | .retfImm _ _ | .int _ | .int3 | .into | .iret _ => [.esp]
  | .pop _ g => [.esp, g]
  | .popRm os d => .esp :: d.homes os.width
  | .popa _ => [.eax, .ecx, .edx, .ebx, .esp, .ebp, .esi, .edi]
  | .enter _ _ _ | .leave _ => [.esp, .ebp]
  | .loop _ _ _ | .loope _ _ _ | .loopne _ _ _ => [.ecx]
  | .movsb _ _ r | .movsw _ _ _ r => .esi :: .edi :: repHomes r
  | .cmpsb _ _ r | .cmpsw _ _ _ r => .esi :: .edi :: repHomes (decide (r ≠ .once))
  | .stosb _ r | .stosw _ _ r | .insb _ r | .insw _ _ r => .edi :: repHomes r
  | .lodsb _ _ r | .lodsw _ _ _ r => .eax :: .esi :: repHomes r
  | .scasb _ r | .scasw _ _ r => .edi :: repHomes (decide (r ≠ .once))
  | .outsb _ _ r | .outsw _ _ _ r => .esi :: repHomes r
  | .prefixEs | .prefixCs | .prefixSs | .prefixDs | .prefixFs | .prefixGs | .prefixOpSize | .prefixAddrSize | .prefixLock
  | .prefixRepne | .prefixRep | .cmp _ _ _ | .test _ _ _ | .bt _ _ _ | .movMoffsAcc _ _ | .movToSeg _ _ | .movToCr _ _
  | .sahf | .jo _ _ | .jno _ _ | .jb _ _ | .jae _ _ | .je _ _ | .jne _ _ | .jbe _ _ | .ja _ _ | .js _ _ | .jns _ _
  | .jp _ _ | .jnp _ _ | .jl _ _ | .jge _ _ | .jle _ _ | .jg _ _ | .jcxz _ _ _ | .jmpRel _ _ | .jmpInd _ _
  | .jmpFar _ _ _ | .jmpFarInd _ _ | .outImm _ _ | .outDx _ | .clc | .stc | .cmc | .cli | .sti | .cld | .std | .nop
  | .wait | .hlt | .lgdt _ _ | .lidt _ _ | .sgdt _ _ | .sidt _ _ | .lmsw _ | .clts | .invalid _ | .x87Escape _ => []

/-- Every status flag that an instruction may write (R67). -/
def Instr.statusWritten : Instr → List StatusFlag
  | .add _ _ _ | .or _ _ _ | .adc _ _ _ | .sbb _ _ _ | .and _ _ _ | .sub _ _ _ | .xor _ _ _ | .cmp _ _ _ | .test _ _ _
  | .neg _ _ | .mul _ _ | .imul _ _ | .imulReg _ _ _ | .imulImm _ _ _ _ | .div _ _ | .idiv _ _ | .daa | .das | .aaa | .aas
  | .aam _ | .aad _ | .shl _ _ _ | .shr _ _ _ | .sar _ _ _ | .shld _ _ _ _ | .shrd _ _ _ _ | .bsf _ _ _ | .bsr _ _ _
  | .cmpsb _ _ _ | .cmpsw _ _ _ _ | .scasb _ _ | .scasw _ _ _ | .popf | .popfd | .iret _ => [.cf, .pf, .af, .zf, .sf, .ofl]
  | .inc _ _ | .dec _ _ => [.pf, .af, .zf, .sf, .ofl]
  | .rol _ _ _ | .ror _ _ _ | .rcl _ _ _ | .rcr _ _ _ => [.cf, .ofl]
  | .bt _ _ _ | .bts _ _ _ | .btr _ _ _ | .btc _ _ _ => [.cf, .pf, .af, .sf, .ofl]
  | .sahf => [.cf, .pf, .af, .zf, .sf]
  | .clc | .stc | .cmc => [.cf]
  | _ => []

/-- Whether an instruction loads FLAGS from an image on the stack: POPF, POPFD, IRET, IRETD. -/
def Instr.popsFlags : Instr → Bool
  | .popf | .popfd | .iret _ => true
  | _ => false

/-- Whether an instruction loads FLAGS from a 32-bit image: POPFD, IRETD. -/
def Instr.popsFlags32 : Instr → Bool
  | .popfd | .iret .s32 => true
  | _ => false

/-- INT n, INT3 and INTO. -/
def Instr.isSoftInt : Instr → Bool
  | .int _ | .int3 | .into => true
  | _ => false

/-- The instructions that sample CR0.PE into the mode latch (R140). -/
def Instr.samplesMode : Instr → Bool
  | .jo _ _ | .jno _ _ | .jb _ _ | .jae _ _ | .je _ _ | .jne _ _ | .jbe _ _ | .ja _ _ | .js _ _ | .jns _ _ | .jp _ _
  | .jnp _ _ | .jl _ _ | .jge _ _ | .jle _ _ | .jg _ _ | .jcxz _ _ _ | .loop _ _ _ | .loope _ _ _ | .loopne _ _ _
  | .jmpRel _ _ | .jmpInd _ _ | .jmpFar _ _ _ | .jmpFarInd _ _ | .callRel _ _ | .callInd _ _ | .callFar _ _ _
  | .callFarInd _ _ | .ret _ | .retImm _ _ | .retf _ | .retfImm _ _ | .int _ | .int3 | .into | .iret _ => true
  | _ => false

/-- The segment registers that an instruction may load: data segments by MOV, POP and the far-pointer loads, CS only by far
transfers, software interrupts and IRET (R136, R137). -/
def Instr.segsWritten : Instr → List SegReg
  | .movToSeg r _ => [r]
  | .lds _ _ _ | .popDs _ => [.ds]
  | .les _ _ _ | .popEs _ => [.es]
  | .lss _ _ _ | .popSs _ => [.ss]
  | .lfs _ _ _ | .popFs _ => [.fs]
  | .lgs _ _ _ | .popGs _ => [.gs]
  | .jmpFar _ _ _ | .jmpFarInd _ _ | .callFar _ _ _ | .callFarInd _ _ | .retf _ | .retfImm _ _ | .int _ | .int3 | .into
  | .iret _ => [.cs]
  | _ => []

/-- The control registers that an instruction may write (R80, R81). -/
def Instr.crsWritten : Instr → List CReg
  | .movToCr c _ => [c]
  | .lmsw _ | .clts => [.cr0]
  | _ => []

/-- The instructions that reach the I/O port space (R170). -/
def Instr.isIo : Instr → Bool
  | .inImm _ _ | .inDx _ | .outImm _ _ | .outDx _ | .insb _ _ | .insw _ _ _ | .outsb _ _ _ | .outsw _ _ _ _ => true
  | _ => false

/-- Every byte of memory that an instruction may store to when it executes in a state: address and number of bytes, each address
computed as the instruction's meaning computes it. -/
def Instr.stored (s : State) : Instr → List (BitVec 32 × Nat)
  | .add w d _ | .or w d _ | .adc w d _ | .sbb w d _ | .and w d _ | .sub w d _ | .xor w d _ | .mov w d _
  | .inc w d | .dec w d | .neg w d | .not w d
  | .rol w d _ | .ror w d _ | .rcl w d _ | .rcr w d _ | .shl w d _ | .shr w d _ | .sar w d _ | .xchg w d _ =>
    (s.place d).bytes w
  | .shld os d _ _ | .shrd os d _ _ => (s.place d).bytes os.width
  | .bts os d off | .btr os d off | .btc os d off => (s.bitPlace os d off).1.bytes os.width
  | .movMoffsAcc w m => [(s.moffsAddr m, w.bytes)]
  | .movFromSeg _ d _ | .smsw _ d => (s.place d).bytes .w16
  | .seto d | .setno d | .setb d | .setae d | .sete d | .setne d | .setbe d | .seta d | .sets d | .setns d | .setp d
  | .setnp d | .setl d | .setge d | .setle d | .setg d => (s.place d).bytes .w8
  | .push os _ | .pushImm os _ | .pushEs os | .pushCs os | .pushSs os | .pushDs os | .pushFs os | .pushGs os
  | .pushf os => s.slots os 1
  | .pusha os => s.slots os 8
  | .popRm os d => ((s.popped os).place d).bytes os.width
  | .enter os _ level => s.slots os (enterPushes level)
  | .callRel os _ | .callInd os _ => s.sampleMode.slots os 1
  | .callFar os _ _ | .callFarInd os _ => s.sampleMode.slots os 2
  | .int _ | .int3 | .into => s.sampleMode.slots .s16 3
  | .movsb as _ r => s.elements as .w8 r
  | .movsw os as _ r => s.elements as os.width r
  | .stosb as r | .insb as r => s.elements as .w8 r
  | .stosw os as r | .insw os as r => s.elements as os.width r
  | .sgdt _ m | .sidt _ m => [(s.memAddr m, 2), (s.memAddrPlus m 2, 4)]
  | _ => []

/-! ## Opcodes (R251, R260) -/

/-- The one-byte opcodes that name no instruction (R260). -/
def invalidOneByte : List Byte := [0x62, 0x63, 0xD6, 0xD8, 0xD9, 0xDA, 0xDB, 0xDC, 0xDD, 0xDE, 0xDF, 0xF1]

/-- The second opcode bytes that name an instruction, in the order of the two-byte map (R251). -/
def twoByteOpcodes : List Byte :=
  [0x01, 0x06, 0x20, 0x22, 0x80, 0x81, 0x82, 0x83, 0x84, 0x85, 0x86, 0x87, 0x88, 0x89, 0x8A, 0x8B, 0x8C, 0x8D, 0x8E, 0x8F]
    ++ [0x90, 0x91, 0x92, 0x93, 0x94, 0x95, 0x96, 0x97, 0x98, 0x99, 0x9A, 0x9B, 0x9C, 0x9D, 0x9E, 0x9F, 0xA0, 0xA1, 0xA3]
    ++ [0xA4, 0xA5, 0xA8, 0xA9, 0xAB, 0xAC, 0xAD, 0xAF, 0xB2, 0xB3, 0xB4, 0xB5, 0xB6, 0xB7, 0xBA, 0xBB, 0xBC, 0xBD, 0xBE]
    ++ [0xBF]

/-- The reg field of a ModRM byte (R221). -/
def regField (m : Byte) : Nat := m.toNat / 8 % 8

/-- Whether the mod field of a ModRM byte is 3 (R221). -/
abbrev modIs3 (m : Byte) : Prop := 192 ≤ m.toNat

/-- The ModRM bytes that make a one-byte opcode invalid (R261). -/
abbrev InvalidForm1 (op m : Byte) : Prop :=
  (op = 0xFE ∧ 2 ≤ regField m) ∨ (op = 0xFF ∧ regField m = 7) ∨ (op = 0x8F ∧ 1 ≤ regField m)
    ∨ ((op = 0xC6 ∨ op = 0xC7) ∧ 1 ≤ regField m) ∨ (op = 0x8C ∧ 6 ≤ regField m)
    ∨ (op = 0x8E ∧ (regField m = 1 ∨ 6 ≤ regField m)) ∨ ((op = 0x8D ∨ op = 0xC4 ∨ op = 0xC5) ∧ modIs3 m)
    ∨ (op = 0xFF ∧ (regField m = 3 ∨ regField m = 5) ∧ modIs3 m)

/-- The ModRM bytes that make a two-byte opcode, 0F and op, invalid (R261). -/
abbrev InvalidForm2 (op m : Byte) : Prop :=
  (op = 0x01 ∧ (regField m = 5 ∨ regField m = 7 ∨ (regField m ≤ 3 ∧ modIs3 m))) ∨ (op = 0xBA ∧ regField m ≤ 3)
    ∨ ((op = 0xB2 ∨ op = 0xB4 ∨ op = 0xB5) ∧ modIs3 m) ∨ ((op = 0x20 ∨ op = 0x22) ∧ 5 ≤ regField m)

/-! ## Prefixes (R211, R215) -/

/-- The prefix state after one more prefix byte: the last segment override and the last repeat prefix win, the others are set
(R211). -/
def Prefixes.after (p : Prefixes) : Instr → Prefixes
  | .prefixEs => { p with seg := some .es }
  | .prefixCs => { p with seg := some .cs }
  | .prefixSs => { p with seg := some .ss }
  | .prefixDs => { p with seg := some .ds }
  | .prefixFs => { p with seg := some .fs }
  | .prefixGs => { p with seg := some .gs }
  | .prefixOpSize => { p with opSize := true }
  | .prefixAddrSize => { p with addrSize := true }
  | .prefixLock => { p with lock := true }
  | .prefixRepne => { p with rep := some .f2 }
  | .prefixRep => { p with rep := some .f3 }
  | _ => p

end Sys2Proof
end

