-- ==== Sys2Proof/Certificates/Slice0/Obligations.lean ====
section
/-! DEFINITION. The statements for the provers, each from the numbered rules its docstring cites. Operands in memory are read and
written where `placeOk`, `operandOk`, `mapped`, `slotOk` and `popOk` say they are inside P_MEM_SIZE; results are whole next states,
so that they are completion statements too. -/

open Sys2Proof Sys2Proof.Machine

/-! ## Decoding (R201, R210 to R262) -/

/-- Words written out from the spec's examples and encodings decode to the instructions they stand for, one or more for each
family. -/
def Obligations.DecodeSpecWords : Prop :=
  decode .s16 .empty [0x00, 0xD8] = some (.add .w8 (.reg .eax) (.rm (.reg .ebx)), [])
    ∧ decode .s16 .empty [0x6B, 0xC3, 0x0A] = some (.imulImm .s16 .eax (.reg .ebx) 10, [])
    ∧ decode .s16 .empty [0xD4, 0x0A] = some (.aam 0x0A, [])
    ∧ decode .s16 .empty [0x0F, 0xB3, 0xD8] = some (.btr .s16 (.reg .eax) (.reg .ebx), [])
    ∧ decode .s16 .empty [0xC0, 0xE0, 0x04] = some (.shl .w8 (.reg .eax) (.imm 4), [])
    ∧ decode .s16 .empty [0xC5, 0x36, 0x00, 0x01] = some (.lds .s16 .esi ⟨.ds, .a16 .abs (.full 0x0100)⟩, [])
    ∧ decode .s32 .empty [0x8B, 0x44, 0x8B, 0xF0]
        = some (.mov .w32 (.reg .eax) (.rm (.mem ⟨.ds, .a32 (some .ebx) (some (.ecx, .x4)) (.byte 0xF0)⟩)), [])
    ∧ decode .s16 .empty [0x6A, 0xFF] = some (.pushImm .s16 0xFFFF, [])
    ∧ decode .s16 .empty [0x0F, 0x84, 0x00, 0x10] = some (.je .s16 (.near 0x1000), [])
    ∧ decode .s16 .empty [0x9A, 0x05, 0x00, 0x00, 0x20] = some (.callFar .s16 5 0x2000, [])
    ∧ decode .s16 .empty [0xCD, 0x21] = some (.int 0x21, [])
    ∧ decode .s16 { Prefixes.empty with rep := some .f3 } [0xA6] = some (.cmpsb .s16 .ds .repe, [])
    ∧ decode .s16 .empty [0xEC] = some (.inDx .w8, [])
    ∧ decode .s16 .empty [0x0F, 0x22, 0xC0] = some (.movToCr .cr0 .eax, [])
    ∧ decode .s16 .empty [0x66] = some (.prefixOpSize, [])

/-- Decoding the encoding of a well-formed instruction gives it back, with every operand, whatever bytes follow. -/
def Obligations.EncodeDecodeRoundTrip : Prop :=
  ∀ (csz : Size) (p : Prefixes) (i : Instr) (rest : List Byte),
    i.wf csz p = true → decode csz p (encode i ++ rest) = some (i, rest)

/-- What the decoder gives is well formed, and it reads at least one byte and nothing but the bytes it was given, in order
(R201). -/
def Obligations.DecodedIsWellFormed : Prop :=
  ∀ (csz : Size) (p : Prefixes) (bs : List Byte) (i : Instr) (rest : List Byte),
    decode csz p bs = some (i, rest) → i.wf csz p = true ∧ ∃ used, used ≠ [] ∧ bs = used ++ rest

/-- Every ModRM form that R261 lists raises InvalidOpcode once the ModRM byte is read: as a unit after any prefixes, and as a
whole cycle, whatever follows. -/
def Obligations.InvalidFormsFault : Prop :=
  (∀ (csz : Size) (p : Prefixes) (op m : Byte) (rest : List Byte), InvalidForm1 op m →
    ∃ i, decode csz p (op :: m :: rest) = some (i, rest) ∧ ∀ s, exec i s = .fault (.precise (.invalidOpcode s.cyc.bytes)))
  ∧ (∀ (csz : Size) (p : Prefixes) (op m : Byte) (rest : List Byte), InvalidForm2 op m →
    ∃ i, decode csz p (0x0F :: op :: m :: rest) = some (i, rest)
      ∧ ∀ s, exec i s = .fault (.precise (.invalidOpcode s.cyc.bytes)))
  ∧ (∀ (s : State) (op m : Byte) (rest : List Byte), s.NoDelivery → s.halted = false → s.window = op :: m :: rest →
    InvalidForm1 op m → step s = .fault (.precise (.invalidOpcode [op, m])))
  ∧ ∀ (s : State) (op m : Byte) (rest : List Byte), s.NoDelivery → s.halted = false →
    s.window = 0x0F :: op :: m :: rest → InvalidForm2 op m → step s = .fault (.precise (.invalidOpcode [0x0F, op, m]))

/-- Every one-byte opcode that R260 lists, and every second byte that R251 does not list, raises InvalidOpcode with the bytes read
so far: as a unit after any prefixes, and as a whole cycle, whatever follows; the invalid encodings and the x87 escapes are the
instructions that the spec stops on every path (R260, R262). A faulting step gives no next state, so that nothing changes and EIP
does not advance. -/
def Obligations.InvalidOpcodesFault : Prop :=
  ((∀ (c : BadCode) (s : State), exec (.invalid c) s = .fault (.precise (.invalidOpcode s.cyc.bytes)))
    ∧ ∀ (b : Byte) (s : State), exec (.x87Escape b) s = .fault (.precise (.invalidOpcode s.cyc.bytes)))
  ∧ ((∀ (csz : Size) (p : Prefixes) (op : Byte) (rest : List Byte), op ∈ invalidOneByte →
    ∃ i, decode csz p (op :: rest) = some (i, rest) ∧ ∀ s, exec i s = .fault (.precise (.invalidOpcode s.cyc.bytes)))
  ∧ (∀ (csz : Size) (p : Prefixes) (op : Byte) (rest : List Byte), op ∉ twoByteOpcodes →
    ∃ i, decode csz p (0x0F :: op :: rest) = some (i, rest) ∧ ∀ s, exec i s = .fault (.precise (.invalidOpcode s.cyc.bytes)))
  ∧ (∀ (s : State) (op : Byte) (rest : List Byte), s.NoDelivery → s.halted = false → s.window = op :: rest →
    op ∈ invalidOneByte → step s = .fault (.precise (.invalidOpcode [op])))
  ∧ ∀ (s : State) (op : Byte) (rest : List Byte), s.NoDelivery → s.halted = false → s.window = 0x0F :: op :: rest →
    op ∉ twoByteOpcodes → step s = .fault (.precise (.invalidOpcode [0x0F, op])))

/-! ## Fetching and the cycle (R138, R200 to R206, R210, R211) -/

/-- Byte k of an instruction is at offset o = (EIP + k) mod 2^CSZ in CS. In protected mode an offset above the CS limit faults
before the byte is read, in real mode no limit is checked; then the byte is read from memory, which can fault (R138). -/
def Obligations.FetchRule : Prop :=
  ∀ (s : State) (k : Nat),
    let o := truncTo s.codeSize (s.eip + BitVec.ofNat 32 k)
    let lin := s.linear .cs o
    (s.mode = .prot → s.segs.cs.desc.limit.toNat < o.toNat → s.fetchByte k = .error (.generalProtection (.offset o)))
      ∧ (s.mode = .real ∨ o.toNat ≤ s.segs.cs.desc.limit.toNat → s.params.memSize ≤ lin.toNat →
        s.fetchByte k = .error (.memoryBounds lin))
      ∧ (s.mode = .real ∨ o.toNat ≤ s.segs.cs.desc.limit.toNat → lin.toNat < s.params.memSize →
        s.fetchByte k = .ok (s.byteAt lin))

/-- The bytes that the decoder is given are the fetched ones, in order; they end at the fifteenth or at the first that cannot be
fetched (R201). A decoder that needs a byte more, after any prefixes: at the first byte that cannot be fetched the cycle ends with
that byte's fault, and at a sixteenth byte with InvalidOpcode and the fifteen bytes read (R202, R206). -/
def Obligations.OneByteMoreFaults : Prop :=
  (∀ s : State, s.window.length ≤ 15 ∧ (∀ k (h : k < s.window.length), s.fetchByte k = .ok (s.window[k]'h))
    ∧ (s.window.length < 15 → ∃ e, s.fetchByte s.window.length = .error e))
  ∧ (∀ (s : State) (ps : List Instr) (bs : List Byte), s.NoDelivery → s.halted = false →
    (∀ i ∈ ps, i.isPrefix = true) → s.window = ps.flatMap encode ++ bs →
    decode s.codeSize (ps.foldl Prefixes.after .empty) bs = none →
    (s.window.length = 15 → step s = .fault (.precise (.invalidOpcode s.window)))
      ∧ ∀ e, s.window.length < 15 → s.fetchByte s.window.length = .error e → step s = .fault (.precise e))

/-- A cycle in which no interrupt is delivered (none is pending, or it is masked by IF = 0 where P_IRQ_MASKED_BY_IF holds) and the
machine is not halted runs the instruction at CS:EIP. When the fetched bytes decode to an instruction i that is no prefix, the step is exec
of i, in the state whose transient part holds the code size, no prefix and the bytes read; at the end the transient part is
emptied (R99, R200). -/
def Obligations.StepRunsInstruction : Prop :=
  ∀ (s : State) (i : Instr) (rest : List Byte), s.NoDelivery → s.halted = false →
    decode s.codeSize .empty s.window = some (i, rest) → i.isPrefix = false →
    step s = endOutcome (exec i (s.setCyc ⟨s.codeSize, .empty, s.window.take (s.window.length - rest.length)⟩))

/-- The same with prefix bytes before the opcode, in any number and order: the instruction is decoded and executed with the prefix
state they add up to (R210, R211). -/
def Obligations.StepRunsPrefixed : Prop :=
  ∀ (s : State) (ps : List Instr) (i : Instr) (bs rest : List Byte), s.NoDelivery → s.halted = false →
    (∀ j ∈ ps, j.isPrefix = true) → i.isPrefix = false → s.window = ps.flatMap encode ++ bs →
    decode s.codeSize (ps.foldl Prefixes.after .empty) bs = some (i, rest) →
    step s = endOutcome (exec i
      (s.setCyc ⟨s.codeSize, ps.foldl Prefixes.after .empty, s.window.take (s.window.length - rest.length)⟩))

/-- Every prefix byte completes: it records itself in the prefix state and changes nothing else (R210 to R216). The sizes that the
prefixes choose: OS and AS are the default size, or the other one where 66 or 67 is present (R213, R214); the default is 16 in real
mode, and in protected mode 32 or 16 by the CS descriptor (R217). -/
def Obligations.PrefixesRecorded : Prop :=
  (∀ (i : Instr) (s : State), i.isPrefix = true → exec i s = .next (s.setCyc { s.cyc with pfx := s.cyc.pfx.after i }))
  ∧ (∀ s : State, s.codeSize = .s32 ↔ s.mode = .prot ∧ s.segs.cs.desc.is32 = true)
    ∧ ∀ (d : Size) (p : Prefixes),
      (p.os d).width.bits = (if p.opSize then 48 - d.width.bits else d.width.bits)
        ∧ (p.as d).width.bits = if p.addrSize then 48 - d.width.bits else d.width.bits

/-- A latched interrupt that is pending, and not masked by IF = 0 where P_IRQ_MASKED_BY_IF holds, is delivered in place of the next
instruction, with EIP as return address: the latch and `halted` are cleared and `intDepth` grows by one (R200 step 1, R721). A
delivery that cannot be made faults, and leaves the latch pending (R712). While the machine is halted and no interrupt can be
delivered, a cycle does nothing (R97, R200 step 2). -/
def Obligations.CycleOrder : Prop :=
  (∀ s : State, s.latch.pending = true → (s.params.irqMaskedByIf = false ∨ s.flags.ifl = true) →
    (s.deliverOk s.latch.vector s.eip = true →
      step s = .next ((((s.delivered s.latch.vector s.eip).setLatch { s.latch with pending := false }).setHalted false).setIntDepth
        (s.intDepth + 1)))
    ∧ (s.deliverOk s.latch.vector s.eip = false → ∃ k, step s = .fault (.precise k)))
  ∧ (∀ s : State, s.halted = true → s.NoDelivery → step s = .next s)

/-- What a delivery does (R722, R723): the mode is sampled from CR0.PE; FLAGS[15:0] as it was, CS and the return offset are in the
three slots; IF, TF and AC are 0 and no other flag changes; CS:EIP comes from the IVT entry. -/
def Obligations.DeliveryEffect : Prop :=
  ∀ (s : State) (v : BitVec 8) (ret : BitVec 32), s.deliverOk v ret = true →
    let m := s.sampleMode
    let t := s.delivered v ret
    s.deliver v ret = .ok t
      ∧ t.mode = (if s.cr.cr0.getLsbD 0 then .prot else .real)
      ∧ t.load (m.slot .s16 1) .w16 = s.flags.toWord.setWidth 16
      ∧ t.load (m.slot .s16 2) .w16 = s.segs.cs.sel
      ∧ t.load (m.slot .s16 3) .w16 = ret.setWidth 16
      ∧ t.sp = truncTo m.sw (m.sp - 6)
      ∧ t.flags = { s.flags with ifl := false, tf := false, ac := false }
      ∧ t.segs.cs.sel = t.load (BitVec.ofNat 32 (4 * v.toNat + 2)) .w16
      ∧ t.eip = (t.load (BitVec.ofNat 32 (4 * v.toNat)) .w16).setWidth 32

/-! ## Invariants and the host -/

/-- Every step keeps the invariant (P_MEM_SIZE in its range, no transient state between cycles, memory in canonical form and below
P_MEM_SIZE, halted only with IF = 1, VM clear), from every state that meets it; and so does the state that a fault leaves: the state
before the cycle, or for a repeated string instruction the one after its completed iterations (R581, R700). -/
def Obligations.StepKeepsInv : Prop :=
  (∀ s t : State, s.Inv → step s = .next t → t.Inv)
  ∧ (∀ (s : State) (f : Fault), s.Inv → step s = .fault f → (Fault.leaves s f).Inv)

/-- The reset state meets the invariant. -/
def Obligations.ResetMeetsInv : Prop := State.Inv .reset

/-- A step never refuses: every instruction has a meaning, and the machine stops only with a fault of the spec. No step changes the
parameters (R12, R174), and none sets or clears VM, VIF or VIP (R67, R68). -/
def Obligations.StepNeverRefuses : Prop :=
  (∀ (s : State) (r : Refusal), step s ≠ .refused r)
  ∧ (∀ s t : State, step s = .next t →
    t.params = s.params ∧ t.flags.vm = s.flags.vm ∧ t.flags.vif = s.flags.vif ∧ t.flags.vip = s.flags.vip)

/-- Reset puts every item of core state at the value of the table of R110, whatever the state was (R760), and touches neither
memory nor the I/O map nor the parameters (R761). -/
def Obligations.ResetValues : Prop :=
  ∀ s : State,
    let t := s.hostReset
    t.regs = ⟨0, 0, 0, 0, 0, 0, 0, 0⟩ ∧ t.eip = 0 ∧ t.flags.toWord = 0x00000240
      ∧ (∀ r, t.segs.get r = ⟨0, ⟨0, 0x0000FFFF, decide (r = .cs), true, false, false⟩⟩)
      ∧ t.mode = .real ∧ t.halted = false ∧ (∀ c, t.cr.get c = 0) ∧ t.gdtr = ⟨0, 0xFFFF⟩ ∧ t.idtr = ⟨0, 0x03FF⟩
      ∧ t.latch = ⟨false, 0⟩ ∧ t.intDepth = 0 ∧ t.mem = s.mem ∧ t.params = s.params
      ∧ State.reset = State.hostReset .reset

/-- A request sets the latch, a later vector overwriting an earlier one, and changes nothing else (R96, R711). A fault with an
advisory vector may be injected as a request in the state the fault leaves (R706, R745): DivisionError as 0, GeneralProtectionFault,
whether it reports an offset or a selector, as 13, InvalidOpcode as 6; the two others have no vector. A fault raised inside a
repetition leaves the state of its completed iterations, and is injected there (R581). The memory service (R743) reads and writes
bytes, words and doublewords as the core's own accesses do; a block is its bytes at consecutive addresses: a block write puts byte k
of the buffer at address a + k and changes nothing else, and a block read answers len bytes, byte k that at a + k. -/
def Obligations.HostRequests : Prop :=
  (∀ (s : State) (v w : BitVec 8), (s.requestInterrupt v).latch = ⟨true, v⟩
      ∧ (s.requestInterrupt v).requestInterrupt w = s.requestInterrupt w
      ∧ (s.requestInterrupt v).setLatch s.latch = s)
    ∧ (∀ (s : State) (a : BitVec 32) (v : BitVec 16) (bs : List Byte),
      s.injectFault (.precise .divisionError) = s.requestInterrupt 0
        ∧ s.injectFault (.precise (.generalProtection (.offset a))) = s.requestInterrupt 13
        ∧ s.injectFault (.precise (.generalProtection (.selector v))) = s.requestInterrupt 13
        ∧ s.injectFault (.precise (.invalidOpcode bs)) = s.requestInterrupt 6
        ∧ s.injectFault (.precise .haltWithInterruptsDisabled) = s
        ∧ s.injectFault (.precise (.memoryBounds a)) = s)
    ∧ (∀ (s t : State) (a : BitVec 32) (v : BitVec 16) (bs : List Byte),
      s.injectFault (.inRepetition .divisionError t) = t.requestInterrupt 0
        ∧ s.injectFault (.inRepetition (.generalProtection (.offset a)) t) = t.requestInterrupt 13
        ∧ s.injectFault (.inRepetition (.generalProtection (.selector v)) t) = t.requestInterrupt 13
        ∧ s.injectFault (.inRepetition (.invalidOpcode bs) t) = t.requestInterrupt 6
        ∧ s.injectFault (.inRepetition .haltWithInterruptsDisabled t) = t
        ∧ s.injectFault (.inRepetition (.memoryBounds a) t) = t)
    ∧ (∀ (s : State) (a : BitVec 32),
      (s.mapped a 1 = true → s.memRead .w8 a = .ok (s.hostReadByte a)
          ∧ ∀ v, s.memWrite .w8 a v = .ok (s.hostWriteByte a v))
        ∧ (s.mapped a 2 = true → s.memRead .w16 a = .ok (s.hostReadWord a)
          ∧ ∀ v, s.memWrite .w16 a v = .ok (s.hostWriteWord a v))
        ∧ (s.mapped a 4 = true → s.memRead .w32 a = .ok (s.hostReadDWord a)
          ∧ ∀ v, s.memWrite .w32 a v = .ok (s.hostWriteDWord a v)))
    ∧ (∀ (s : State) (a : BitVec 32) (n : Nat), (s.hostBlockRead a n).length = n
      ∧ ∀ k (h : k < (s.hostBlockRead a n).length), (s.hostBlockRead a n)[k] = s.byteAt (a + BitVec.ofNat 32 k))
    ∧ ∀ (s : State) (a : BitVec 32) (bs : List Byte), bs.length ≤ 2 ^ 32 →
      let t := s.hostBlockWrite a bs
      t.setMem s.mem = s
        ∧ (∀ k (h : k < bs.length), t.byteAt (a + BitVec.ofNat 32 k) = bs[k])
        ∧ ∀ b, Outside b [(a, bs.length)] → t.byteAt b = s.byteAt b

/-! ## Frames: what an instruction leaves unchanged where it completes -/

/-- Every general register but those that `regsWritten` names for the instruction is unchanged. -/
def Obligations.RegisterFrame : Prop :=
  ∀ (i : Instr) (s t : State), exec i s = .next t → ∀ r, r ∉ i.regsWritten → t.regs.get r = s.regs.get r

/-- Every status flag but those that `statusWritten` names is unchanged, and the other flags change only where R67 says: DF by CLD,
STD and the loads of FLAGS from the stack, IF by CLI, STI, those loads and software interrupts, TF by those loads and software
interrupts, IOPL and NT by those loads, RF and ID by POPFD and IRETD, AC by these two and software interrupts, VM, VIF and VIP by
none. -/
def Obligations.FlagFrame : Prop :=
  ∀ (i : Instr) (s t : State), exec i s = .next t →
    (∀ x, x ∉ i.statusWritten → t.flags.get x = s.flags.get x)
      ∧ (i ≠ .cld → i ≠ .std → i.popsFlags = false → t.flags.df = s.flags.df)
      ∧ (i ≠ .cli → i ≠ .sti → i.popsFlags = false → i.isSoftInt = false → t.flags.ifl = s.flags.ifl)
      ∧ (i.popsFlags = false → i.isSoftInt = false → t.flags.tf = s.flags.tf)
      ∧ (i.popsFlags = false → t.flags.iopl = s.flags.iopl ∧ t.flags.nt = s.flags.nt)
      ∧ (i.popsFlags32 = false → t.flags.rf = s.flags.rf ∧ t.flags.id = s.flags.id)
      ∧ (i.popsFlags32 = false → i.isSoftInt = false → t.flags.ac = s.flags.ac)
      ∧ t.flags.vm = s.flags.vm ∧ t.flags.vif = s.flags.vif ∧ t.flags.vip = s.flags.vip

/-- Every byte of memory outside the bytes that the instruction stores to reads as before; `stored` computes them from the state
the instruction starts in, as its meaning does, and is empty for a form that stores nothing. -/
def Obligations.MemoryFrame : Prop :=
  ∀ (i : Instr) (s t : State), exec i s = .next t → ∀ a, Outside a (i.stored s) → t.byteAt a = s.byteAt a

/-- Every segment register but those that `segsWritten` names is unchanged, and one that changes gets selector and descriptor
together: the real-mode descriptor of its selector, or a decoded one (R72). -/
def Obligations.SegmentFrame : Prop :=
  ∀ (i : Instr) (s t : State), exec i s = .next t → ∀ r,
    (r ∉ i.segsWritten → t.segs.get r = s.segs.get r)
      ∧ (t.segs.get r = s.segs.get r ∨ ∃ v, t.segs.get r = realSegment r v ∨ ∃ d, t.segs.get r = ⟨v, decodeDescriptor d⟩)

/-- The control and table registers change only by their own instructions; the mode becomes CR0.PE where the instruction samples it
and is unchanged elsewhere (R140); the latch never changes, `halted` only by HLT, `intDepth` only by INT, INT3, INTO and IRET; no
device is called but by the I/O instructions. Every instruction but a prefix byte and a control transfer leaves EIP at `next`, the
address after it modulo 2^CSZ (R61, R205). -/
def Obligations.SystemFrame : Prop :=
  (∀ (i : Instr) (s t : State), exec i s = .next t →
    (∀ c, c ∉ i.crsWritten → t.cr.get c = s.cr.get c)
      ∧ ((∀ os m, i ≠ .lgdt os m) → t.gdtr = s.gdtr)
      ∧ ((∀ os m, i ≠ .lidt os m) → t.idtr = s.idtr)
      ∧ (i.samplesMode = true → t.mode = if s.cr.cr0.getLsbD 0 then .prot else .real)
      ∧ (i.samplesMode = false → t.mode = s.mode)
      ∧ t.latch = s.latch
      ∧ (i ≠ .hlt → t.halted = s.halted)
      ∧ (i.isSoftInt = false → (∀ os, i ≠ .iret os) → t.intDepth = s.intDepth)
      ∧ (i.isIo = false → t.ioLog = s.ioLog))
  ∧ (∀ (i : Instr) (s t : State), exec i s = .next t → i.isPrefix = false → i.samplesMode = false →
    t.eip = truncTo s.cyc.csz (s.eip + BitVec.ofNat 32 s.cyc.bytes.length))

/-! ## Registers, memory, segments, ports -/

/-- The views of the general registers share one storage (R50 to R55). The 32-bit view of a register is all of it, the 16-bit view its
low 16 bits; the 8-bit views of indexes 0 to 3 (AL, CL, DL, BL) are bits 7:0 of EAX, ECX, EDX and EBX, those of indexes 4 to 7 (AH,
CH, DH, BH) bits 15:8 of the same four. A write changes the bits of its view and nothing else: a 16-bit write keeps bits 31:16; a
write of AL, CL, DL or BL keeps bits 31:8; a write of AH, CH, DH or BH keeps bits 31:16 and 7:0; the other registers keep all bits.
So a view reads as what was last written to it. -/
def Obligations.RegisterViews : Prop :=
  ∀ s : State,
    (∀ (w : Width) (r : Reg) (v : BitVec w.bits), (s.setReg w r v).reg w r = v ∧ (s.setReg w r v).setRegs s.regs = s)
      ∧ (s.reg .w32 .eax = s.regs.eax ∧ s.reg .w32 .ecx = s.regs.ecx ∧ s.reg .w32 .edx = s.regs.edx ∧ s.reg .w32 .ebx = s.regs.ebx
        ∧ s.reg .w32 .esp = s.regs.esp ∧ s.reg .w32 .ebp = s.regs.ebp ∧ s.reg .w32 .esi = s.regs.esi
        ∧ s.reg .w32 .edi = s.regs.edi)
      ∧ (∀ r, s.regs.get r = s.reg .w32 r ∧ s.reg .w16 r = (s.reg .w32 r).extractLsb' 0 16)
      ∧ (s.reg .w8 .eax = s.regs.eax.extractLsb' 0 8 ∧ s.reg .w8 .ecx = s.regs.ecx.extractLsb' 0 8
        ∧ s.reg .w8 .edx = s.regs.edx.extractLsb' 0 8 ∧ s.reg .w8 .ebx = s.regs.ebx.extractLsb' 0 8
        ∧ s.reg .w8 .esp = s.regs.eax.extractLsb' 8 8 ∧ s.reg .w8 .ebp = s.regs.ecx.extractLsb' 8 8
        ∧ s.reg .w8 .esi = s.regs.edx.extractLsb' 8 8 ∧ s.reg .w8 .edi = s.regs.ebx.extractLsb' 8 8)
      ∧ (∀ r v, (s.setReg .w32 r v).regs.get r = v
        ∧ ∀ q, q ≠ r → (s.setReg .w32 r v).regs.get q = s.regs.get q)
      ∧ (∀ r v, (s.setReg .w16 r v).regs.get r = (s.regs.get r).extractLsb' 16 16 ++ v
        ∧ ∀ q, q ≠ r → (s.setReg .w16 r v).regs.get q = s.regs.get q)
      ∧ ∀ v : BitVec 8,
        (s.setReg .w8 .eax v).regs = { s.regs with eax := s.regs.eax.extractLsb' 8 24 ++ v }
          ∧ (s.setReg .w8 .ecx v).regs = { s.regs with ecx := s.regs.ecx.extractLsb' 8 24 ++ v }
          ∧ (s.setReg .w8 .edx v).regs = { s.regs with edx := s.regs.edx.extractLsb' 8 24 ++ v }
          ∧ (s.setReg .w8 .ebx v).regs = { s.regs with ebx := s.regs.ebx.extractLsb' 8 24 ++ v }
          ∧ (s.setReg .w8 .esp v).regs
            = { s.regs with eax := s.regs.eax.extractLsb' 16 16 ++ v ++ s.regs.eax.extractLsb' 0 8 }
          ∧ (s.setReg .w8 .ebp v).regs
            = { s.regs with ecx := s.regs.ecx.extractLsb' 16 16 ++ v ++ s.regs.ecx.extractLsb' 0 8 }
          ∧ (s.setReg .w8 .esi v).regs
            = { s.regs with edx := s.regs.edx.extractLsb' 16 16 ++ v ++ s.regs.edx.extractLsb' 0 8 }
          ∧ (s.setReg .w8 .edi v).regs
            = { s.regs with ebx := s.regs.ebx.extractLsb' 16 16 ++ v ++ s.regs.ebx.extractLsb' 0 8 }

/-- `MemRead` and `MemWrite` (R121): where an address of the access is at or above P_MEM_SIZE, both fault with the first such
address, before any byte is written; else a read answers the sum of the bytes times 256^k, and a write puts byte k of the value at
address lin + k and leaves every other byte alone. Addresses wrap at 2^32. -/
def Obligations.MemoryPrimitives : Prop :=
  (∀ (s : State) (w : Width) (lin : BitVec 32) (v : BitVec w.bits) (k : Nat), k < w.bytes →
    s.params.memSize ≤ (lin + BitVec.ofNat 32 k).toNat →
    (∀ j < k, (lin + BitVec.ofNat 32 j).toNat < s.params.memSize) →
    s.memRead w lin = .error (.memoryBounds (lin + BitVec.ofNat 32 k))
      ∧ s.memWrite w lin v = .error (.memoryBounds (lin + BitVec.ofNat 32 k)))
  ∧ (∀ (s : State) (lin : BitVec 32) (k : Nat), k < 8 → s.params.memSize ≤ (lin + BitVec.ofNat 32 k).toNat →
    (∀ j < k, (lin + BitVec.ofNat 32 j).toNat < s.params.memSize) →
    s.memRead64 lin = .error (.memoryBounds (lin + BitVec.ofNat 32 k)))
  ∧ (∀ (s : State) (w : Width) (lin : BitVec 32), (∀ j < w.bytes, (lin + BitVec.ofNat 32 j).toNat < s.params.memSize) →
    ∃ v, s.memRead w lin = .ok v
      ∧ v.toNat = ((List.range w.bytes).map fun k => (s.byteAt (lin + BitVec.ofNat 32 k)).toNat * 256 ^ k).sum)
  ∧ (∀ (s : State) (lin : BitVec 32), (∀ j < 8, (lin + BitVec.ofNat 32 j).toNat < s.params.memSize) →
    ∃ v, s.memRead64 lin = .ok v
      ∧ v.toNat = ((List.range 8).map fun k => (s.byteAt (lin + BitVec.ofNat 32 k)).toNat * 256 ^ k).sum)
  ∧ ∀ (s : State) (w : Width) (lin : BitVec 32) (v : BitVec w.bits),
    (∀ j < w.bytes, (lin + BitVec.ofNat 32 j).toNat < s.params.memSize) →
    ∃ t, s.memWrite w lin v = .ok t ∧ t.setMem s.mem = s
      ∧ (∀ k < w.bytes, t.byteAt (lin + BitVec.ofNat 32 k) = v.extractLsb' (8 * k) 8)
      ∧ ∀ a, Outside a [(lin, w.bytes)] → t.byteAt a = s.byteAt a

/-- `Linear(s, off)` (R130): in real mode sixteen times the selector plus the offset, in protected mode the cached base plus the
offset, modulo 2^32. -/
def Obligations.LinearRule : Prop :=
  ∀ (s : State) (r : SegReg) (off : BitVec 32),
    (s.linear r off).toNat =
      match s.mode with
      | .real => ((s.segs.get r).sel.toNat * 16 + off.toNat) % 2 ^ 32
      | .prot => ((s.segs.get r).desc.base.toNat + off.toNat) % 2 ^ 32

/-- `SetSelector(s, v)`. In real mode it cannot fault, and gives base 16 * v and limit 0xFFFF (R131). In protected mode a null selector
for CS and a selector beyond the GDT limit fault with that selector; else the eight bytes at the entry are read, which can fault, and
selector and decoded descriptor are written (R132, R136, R137). The fields of a decoded descriptor are those of R133, and its
effective limit (R134) the 20-bit limit, or in units of 4 KiB with the low 12 bits set where G = 1. -/
def Obligations.SetSelectorRule : Prop :=
  (∀ (s : State) (r : SegReg) (v : BitVec 16), s.mode = .real →
    ∃ t, s.setSelector r v = .ok t
      ∧ t.segs.get r = ⟨v, ⟨BitVec.ofNat 32 (v.toNat * 16), 0x0000FFFF, decide (r = .cs), true, false, false⟩⟩
      ∧ (∀ q, q ≠ r → t.segs.get q = s.segs.get q) ∧ { t with segs := s.segs } = s)
  ∧ (∀ (s : State) (r : SegReg) (v : BitVec 16), s.mode = .prot →
    let off := v.toNat / 8 * 8
    (r = .cs → v.toNat / 8 = 0 → s.setSelector r v = .error (.generalProtection (.selector v)))
      ∧ (s.gdtr.limit.toNat < off + 7 → s.setSelector r v = .error (.generalProtection (.selector v)))
      ∧ ((r ≠ .cs ∨ v.toNat / 8 ≠ 0) → off + 7 ≤ s.gdtr.limit.toNat →
        (∀ k, s.memRead64 (s.gdtr.base + BitVec.ofNat 32 off) = .error k → s.setSelector r v = .error k)
          ∧ ∀ d, s.memRead64 (s.gdtr.base + BitVec.ofNat 32 off) = .ok d →
            s.setSelector r v = .ok (s.setSeg r ⟨v, decodeDescriptor d⟩)))
  ∧ (∀ d : BitVec 64,
    let raw := d.toNat / 2 ^ 48 % 16 * 2 ^ 16 + d.toNat % 2 ^ 16
    let c := decodeDescriptor d
    c.base.toNat = d.toNat / 2 ^ 56 * 2 ^ 24 + d.toNat / 2 ^ 16 % 2 ^ 24
      ∧ (d.getLsbD 55 = false → c.limit.toNat = raw)
      ∧ (d.getLsbD 55 = true → c.limit.toNat = raw * 4096 + 4095)
      ∧ c.isCode = (d.getLsbD 44 && d.getLsbD 43)
      ∧ c.isWritable = (d.getLsbD 44 && !d.getLsbD 43 && d.getLsbD 41)
      ∧ c.is32 = d.getLsbD 54 ∧ c.accessed = d.getLsbD 40)

/-- Effective addresses (R142, R222 to R224): base plus index plus displacement modulo 2^16, or base plus scaled index plus
displacement modulo 2^32, from the register values at the start; the displacement is 0 where it is absent, a byte sign-extended, or
the full one. Segments (R141, R212, R226): a memory operand is at its address in its segment, which is that of the last override
prefix; without one it is SS where the base is BP, EBP or ESP, and DS elsewhere, and the index does not matter: said of MOV Gv,Ev for
every ModRM byte and of the well-formed operands of all instructions. A moffs, the table of XLAT and the source of a string
instruction default to DS. -/
def Obligations.EffectiveAddresses : Prop :=
  (∀ s : State,
    (∀ d : Disp 16,
      let r := fun q => (s.regs.get q).toNat % 2 ^ 16
      let n := (dispValue16 d).toNat
      (s.effAddr (.a16 .bxSi d)).toNat = (r .ebx + r .esi + n) % 2 ^ 16
        ∧ (s.effAddr (.a16 .bxDi d)).toNat = (r .ebx + r .edi + n) % 2 ^ 16
        ∧ (s.effAddr (.a16 .bpSi d)).toNat = (r .ebp + r .esi + n) % 2 ^ 16
        ∧ (s.effAddr (.a16 .bpDi d)).toNat = (r .ebp + r .edi + n) % 2 ^ 16
        ∧ (s.effAddr (.a16 .si d)).toNat = (r .esi + n) % 2 ^ 16
        ∧ (s.effAddr (.a16 .di d)).toNat = (r .edi + n) % 2 ^ 16
        ∧ (s.effAddr (.a16 .bp d)).toNat = (r .ebp + n) % 2 ^ 16
        ∧ (s.effAddr (.a16 .bx d)).toNat = (r .ebx + n) % 2 ^ 16
        ∧ (s.effAddr (.a16 .abs d)).toNat = n)
    ∧ (∀ (b i : Reg) (k : Scale) (d : Disp 32),
      let n := (dispValue32 d).toNat
      let x := (s.regs.get i).toNat * 2 ^ k.toBits.toNat
      (s.effAddr (.a32 (some b) (some (i, k)) d)).toNat = ((s.regs.get b).toNat + x + n) % 2 ^ 32
        ∧ (s.effAddr (.a32 (some b) none d)).toNat = ((s.regs.get b).toNat + n) % 2 ^ 32
        ∧ (s.effAddr (.a32 none (some (i, k)) d)).toNat = (x + n) % 2 ^ 32
        ∧ (s.effAddr (.a32 none none d)).toNat = n)
    ∧ (∀ b : Byte, (dispValue16 (.byte b)).toInt = b.toInt ∧ (dispValue32 (.byte b)).toInt = b.toInt)
    ∧ (dispValue16 .none = 0 ∧ dispValue32 .none = 0 ∧ (∀ d, dispValue16 (.full d) = d) ∧ ∀ d, dispValue32 (.full d) = d)
    ∧ ∀ m : MemRef, s.place (.mem m) = .mem (s.linear m.seg (s.effAddr m.ea)))
  ∧ (∀ p : Prefixes,
    (p.after .prefixEs).seg = some .es ∧ (p.after .prefixCs).seg = some .cs ∧ (p.after .prefixSs).seg = some .ss
      ∧ (p.after .prefixDs).seg = some .ds ∧ (p.after .prefixFs).seg = some .fs ∧ (p.after .prefixGs).seg = some .gs
      ∧ ∀ i ∈ [Instr.prefixOpSize, .prefixAddrSize, .prefixLock, .prefixRepne, .prefixRep], (p.after i).seg = p.seg)
  ∧ (∀ (csz : Size) (p : Prefixes),
    let seg := fun dflt : SegReg =>
      match p.seg with
      | some q => q
      | none => dflt
    let dflt := fun ea : Ea =>
      match ea with
      | .a16 b _ => if b ∈ [Base16.bpSi, .bpDi, .bp] then SegReg.ss else .ds
      | .a32 b _ _ => if b ∈ [some Reg.ebp, some .esp] then .ss else .ds
    (∀ m : MemRef, m.wf csz p = true → m.seg = seg (dflt m.ea))
      ∧ (∀ (m : Byte) (bs rest : List Byte) (w : Width) (g : Reg) (x : MemRef),
        decode csz p (0x8B :: m :: bs) = some (.mov w (.reg g) (.rm (.mem x)), rest) → x.seg = seg (dflt x.ea))
      ∧ (∀ (w : Width) (m : Moffs) (bs rest : List Byte) (op : Byte),
        decode csz p (op :: bs) = some (.movAccMoffs w m, rest) ∨ decode csz p (op :: bs) = some (.movMoffsAcc w m, rest) →
        m.seg = seg .ds)
      ∧ (∀ rest,
        decode csz p (0xD7 :: rest) = some (.xlat (p.as csz) (seg .ds), rest)
          ∧ decode csz p (0xA4 :: rest) = some (.movsb (p.as csz) (seg .ds) p.isRep, rest)
          ∧ decode csz p (0xA5 :: rest) = some (.movsw (p.os csz) (p.as csz) (seg .ds) p.isRep, rest)
          ∧ decode csz p (0xA6 :: rest) = some (.cmpsb (p.as csz) (seg .ds) p.cmpRep, rest)
          ∧ decode csz p (0xA7 :: rest) = some (.cmpsw (p.os csz) (p.as csz) (seg .ds) p.cmpRep, rest)
          ∧ decode csz p (0xAC :: rest) = some (.lodsb (p.as csz) (seg .ds) p.isRep, rest)
          ∧ decode csz p (0xAD :: rest) = some (.lodsw (p.os csz) (p.as csz) (seg .ds) p.isRep, rest)
          ∧ decode csz p (0x6E :: rest) = some (.outsb (p.as csz) (seg .ds) p.isRep, rest)
          ∧ decode csz p (0x6F :: rest) = some (.outsw (p.os csz) (p.as csz) (seg .ds) p.isRep, rest)))

/-! ## Flags -/

/-- FLAGS as a word: every named flag at its bit (R65), every reserved bit 0 (R66); and what the loads and stores of FLAGS keep and
change, as masks of the word: PUSHF and PUSHFD (R382), POPF (R383), POPFD (R384), IRET and IRETD (R560), SAHF (R313). -/
def Obligations.FlagWord : Prop :=
  (∀ f : Flags,
    f.toWord.getLsbD 0 = f.cf ∧ f.toWord.getLsbD 2 = f.pf ∧ f.toWord.getLsbD 4 = f.af ∧ f.toWord.getLsbD 6 = f.zf
      ∧ f.toWord.getLsbD 7 = f.sf ∧ f.toWord.getLsbD 8 = f.tf ∧ f.toWord.getLsbD 9 = f.ifl ∧ f.toWord.getLsbD 10 = f.df
      ∧ f.toWord.getLsbD 11 = f.ofl ∧ f.toWord.extractLsb' 12 2 = f.iopl ∧ f.toWord.getLsbD 14 = f.nt
      ∧ f.toWord.getLsbD 16 = f.rf ∧ f.toWord.getLsbD 17 = f.vm ∧ f.toWord.getLsbD 18 = f.ac ∧ f.toWord.getLsbD 19 = f.vif
      ∧ f.toWord.getLsbD 20 = f.vip ∧ f.toWord.getLsbD 21 = f.id ∧ f.toWord &&& 0xFFC0802A = 0)
  ∧ (∀ f : Flags,
    f.pushImage .s16 = f.toWord.setWidth 16 ∧ f.pushImage .s32 = f.toWord &&& 0x00FCFFFF
      ∧ (∀ v, (f.load16 v).toWord = (f.toWord &&& 0xFFFF802A) ||| (v.setWidth 32 &&& 0x00007FD5))
      ∧ (∀ v, (f.loadPopfd v).toWord = (f.toWord &&& 0x001A0000) ||| (v &&& 0x00247FD5))
      ∧ (∀ v, (f.loadIretd v).toWord = (f.toWord &&& 0x001A0000) ||| (v &&& 0x00257FD5))
      ∧ ∀ v : BitVec 8, (f.loadAh v).toWord = (f.toWord &&& 0xFFFFFF2A) ||| (v.setWidth 32 &&& 0x000000D5))

/-- Parity, SF, ZF and PF of a result, and the flags of a logical result (R400, R401, R404); and the flags of multiply, divide, bit,
scan and shift instructions: those the spec defines have their value, those it leaves to `draw()` are free values, and no other flag
changes (R420, R424, R470, R490, R494). -/
def Obligations.ResultFlags : Prop :=
  (∀ (w : Width) (f : Flags) (r : BitVec w.bits) (k : Nat),
    (parity r = true ↔ ((List.range 8).countP fun i => r.getLsbD i) % 2 = 0)
      ∧ f.szp r = { f with sf := decide (2 ^ (w.bits - 1) ≤ r.toNat), zf := decide (r.toNat = 0), pf := parity r }
      ∧ f.logicFlags k r =
        { f.szp r with cf := false, ofl := false, af := Config.freeFlag k .af })
  ∧ (∀ (f : Flags) (k n : Nat) (b : Bool),
    let d := Config.freeFlag k
    f.mulFlags k b = { f with cf := b, ofl := b, sf := d .sf, zf := d .zf, af := d .af, pf := d .pf }
      ∧ f.divFlags k = { f with cf := d .cf, ofl := d .ofl, sf := d .sf, zf := d .zf, af := d .af, pf := d .pf }
      ∧ f.bitFlags k b = { f with cf := b, ofl := d .ofl, sf := d .sf, af := d .af, pf := d .pf }
      ∧ f.scanFlags k b = { f with zf := b, cf := d .cf, ofl := d .ofl, sf := d .sf, af := d .af, pf := d .pf }
      ∧ f.putOverflow k n b = { f with ofl := if n = 1 then b else d .ofl })

/-- `AddFlags(a, b, c, w)` and `SubFlags(a, b, c, w)` (R402, R403): the result modulo 2^w, CF the carry or borrow, OF by the signs of
the operands and the result, AF the carry out of bit 3 or the borrow into it, and SF, ZF, PF of the result. -/
def Obligations.AddSubFlagsRule : Prop :=
  (∀ (w : Width) (f : Flags) (a b : BitVec w.bits) (c : Bool),
    let full := a.toNat + b.toNat + c.toNat
    let r := (f.addFlags a b c).1
    let g := (f.addFlags a b c).2
    r.toNat = full % 2 ^ w.bits
      ∧ g = { f.szp r with
          cf := decide (2 ^ w.bits ≤ full), ofl := decide (a.msb = b.msb ∧ r.msb ≠ a.msb),
          af := (a ^^^ b ^^^ r).getLsbD 4 })
  ∧ (∀ (w : Width) (f : Flags) (a b : BitVec w.bits) (c : Bool),
    let r := (f.subFlags a b c).1
    let g := (f.subFlags a b c).2
    (r.toNat : Int) = ((a.toNat : Int) - b.toNat - c.toNat) % 2 ^ w.bits
      ∧ g = { f.szp r with
          cf := decide (a.toNat < b.toNat + c.toNat), ofl := decide (a.msb ≠ b.msb ∧ r.msb ≠ a.msb),
          af := (a ^^^ b ^^^ r).getLsbD 4 })

/-- What OF and AF mean after ADD, ADC, SUB and SBB: OF says that the exact signed sum or difference does not fit the width, AF is
the carry out of bit 3 or the borrow into it (R402, R403). -/
def Obligations.OverflowMeaning : Prop :=
  ∀ (w : Width) (f : Flags) (a b : BitVec w.bits) (c : Bool),
    let lo : Int := -2 ^ (w.bits - 1)
    let hi : Int := 2 ^ (w.bits - 1)
    ((f.addFlags a b c).2.ofl = true ↔ ¬(lo ≤ a.toInt + b.toInt + c.toNat ∧ a.toInt + b.toInt + c.toNat < hi))
      ∧ ((f.subFlags a b c).2.ofl = true ↔ ¬(lo ≤ a.toInt - b.toInt - c.toNat ∧ a.toInt - b.toInt - c.toNat < hi))
      ∧ ((f.addFlags a b c).2.af = true ↔ 16 ≤ a.toNat % 16 + b.toNat % 16 + c.toNat)
      ∧ ((f.subFlags a b c).2.af = true ↔ a.toNat % 16 < b.toNat % 16 + c.toNat)

/-- The sixteen conditions by their code, and the code as Jcc and SETcc carry it in the low four bits of their opcode (R245). -/
def Obligations.ConditionCodes : Prop :=
  ∀ f : Flags,
    (f.cond (Cond.ofCode 0x0) = true ↔ f.ofl = true) ∧ (f.cond (Cond.ofCode 0x1) = true ↔ f.ofl = false)
      ∧ (f.cond (Cond.ofCode 0x2) = true ↔ f.cf = true) ∧ (f.cond (Cond.ofCode 0x3) = true ↔ f.cf = false)
      ∧ (f.cond (Cond.ofCode 0x4) = true ↔ f.zf = true) ∧ (f.cond (Cond.ofCode 0x5) = true ↔ f.zf = false)
      ∧ (f.cond (Cond.ofCode 0x6) = true ↔ f.cf = true ∨ f.zf = true)
      ∧ (f.cond (Cond.ofCode 0x7) = true ↔ f.cf = false ∧ f.zf = false)
      ∧ (f.cond (Cond.ofCode 0x8) = true ↔ f.sf = true) ∧ (f.cond (Cond.ofCode 0x9) = true ↔ f.sf = false)
      ∧ (f.cond (Cond.ofCode 0xA) = true ↔ f.pf = true) ∧ (f.cond (Cond.ofCode 0xB) = true ↔ f.pf = false)
      ∧ (f.cond (Cond.ofCode 0xC) = true ↔ f.sf ≠ f.ofl) ∧ (f.cond (Cond.ofCode 0xD) = true ↔ f.sf = f.ofl)
      ∧ (f.cond (Cond.ofCode 0xE) = true ↔ f.zf = true ∨ f.sf ≠ f.ofl)
      ∧ (f.cond (Cond.ofCode 0xF) = true ↔ f.zf = false ∧ f.sf = f.ofl)
      ∧ ∀ (os : Size) (cc : Nat), cc < 16 →
        (∀ d, decode os .empty [BitVec.ofNat 8 (0x70 + cc), d] = some (jccInstr (Cond.ofCode cc) os (.short d), []))
          ∧ decode os .empty [0x0F, BitVec.ofNat 8 (0x90 + cc), 0xC1] = some (setccInstr (Cond.ofCode cc) (.reg .ecx), [])
          ∧ ∀ d : BitVec os.width.bits,
            decode os .empty (0x0F :: BitVec.ofNat 8 (0x80 + cc) :: sizeBytes os (d.setWidth 32))
              = some (jccInstr (Cond.ofCode cc) os (.near (d.signExtend 32)), [])

/-! ## Results: arithmetic and logic -/

/-- ADD, ADC, SUB, SBB, AND, OR, XOR, CMP and TEST complete where their operands are inside memory (R410 to R414, R460 to R462, R464):
the destination takes the result modulo 2^w, CMP and TEST write no operand, and FLAGS takes the flags of R402 to R404. -/
def Obligations.TwoOperandResults : Prop :=
  (∀ (s : State) (w : Width) (dst : Rm) (src : Operand), s.placeOk w (s.place dst) = true → s.operandOk w src = true →
    let p := s.place dst
    let a := s.valueAt w p
    let b := s.operandValue w src
    let c := BitVec.ofNat w.bits s.flags.cf.toNat
    exec (.add w dst src) s = .next ((s.wrote w p (a + b)).setFlags (s.flags.addFlags a b false).2).advance
      ∧ exec (.adc w dst src) s = .next ((s.wrote w p (a + b + c)).setFlags (s.flags.addFlags a b s.flags.cf).2).advance
      ∧ exec (.sub w dst src) s = .next ((s.wrote w p (a - b)).setFlags (s.flags.subFlags a b false).2).advance
      ∧ exec (.sbb w dst src) s = .next ((s.wrote w p (a - b - c)).setFlags (s.flags.subFlags a b s.flags.cf).2).advance)
  ∧ (∀ (s : State) (w : Width) (dst : Rm) (src : Operand), s.placeOk w (s.place dst) = true → s.operandOk w src = true →
    let p := s.place dst
    let a := s.valueAt w p
    let b := s.operandValue w src
    exec (.and w dst src) s = .next ((s.wrote w p (a &&& b)).setFlags (s.flags.logicFlags s.draws (a &&& b))).drawn.advance
      ∧ exec (.or w dst src) s = .next ((s.wrote w p (a ||| b)).setFlags (s.flags.logicFlags s.draws (a ||| b))).drawn.advance
      ∧ exec (.xor w dst src) s = .next ((s.wrote w p (a ^^^ b)).setFlags (s.flags.logicFlags s.draws (a ^^^ b))).drawn.advance
      ∧ exec (.cmp w dst src) s = .next (s.setFlags (s.flags.subFlags a b false).2).advance
      ∧ exec (.test w dst src) s = .next (s.setFlags (s.flags.logicFlags s.draws (a &&& b))).drawn.advance)

/-- INC, DEC, NEG and NOT complete where their operand is inside memory (R415 to R417, R463): INC and DEC keep CF, NOT keeps every
flag. -/
def Obligations.UnaryResults : Prop :=
  ∀ (s : State) (w : Width) (dst : Rm), s.placeOk w (s.place dst) = true →
    let p := s.place dst
    let a := s.valueAt w p
    exec (.inc w dst) s
        = .next ((s.wrote w p (a + 1)).setFlags { (s.flags.addFlags a 1 false).2 with cf := s.flags.cf }).advance
      ∧ exec (.dec w dst) s
        = .next ((s.wrote w p (a - 1)).setFlags { (s.flags.subFlags a 1 false).2 with cf := s.flags.cf }).advance
      ∧ exec (.neg w dst) s = .next ((s.wrote w p (-a)).setFlags (s.flags.subFlags 0 a false).2).advance
      ∧ exec (.not w dst) s = .next (s.wrote w p (BitVec.allOnes w.bits ^^^ a)).advance

/-- MUL and IMUL complete where their operand is inside memory (R420, R421, R423): the halves hold the exact product, the high half in
AH, DX or EDX and the low half in AL, AX or EAX; CF and OF say that it does not fit the low half, unsigned or signed, the other flags
are free. -/
def Obligations.MultiplyResults : Prop :=
  (∀ s : State,
    (∀ hi lo : BitVec 8, s.setHalves .w8 hi lo = s.setRegs { s.regs with eax := s.regs.eax.extractLsb' 16 16 ++ hi ++ lo })
      ∧ (∀ hi lo : BitVec 16, s.setHalves .w16 hi lo
        = s.setRegs { s.regs with eax := s.regs.eax.extractLsb' 16 16 ++ lo, edx := s.regs.edx.extractLsb' 16 16 ++ hi })
      ∧ ∀ hi lo : BitVec 32, s.setHalves .w32 hi lo = s.setRegs { s.regs with eax := lo, edx := hi })
  ∧ (∀ (s : State) (w : Width) (src : Rm) (hi lo : BitVec w.bits), s.placeOk w (s.place src) = true →
    hi.toNat * 2 ^ w.bits + lo.toNat = (s.reg w .eax).toNat * (s.valueAt w (s.place src)).toNat →
    exec (.mul w src) s
      = .next ((s.setHalves w hi lo).setFlags (s.flags.mulFlags s.draws (decide (hi.toNat ≠ 0)))).drawn.advance)
  ∧ (∀ (s : State) (w : Width) (src : Rm) (hi lo : BitVec w.bits), s.placeOk w (s.place src) = true →
    hi.toInt * 2 ^ w.bits + lo.toNat = (s.reg w .eax).toInt * (s.valueAt w (s.place src)).toInt →
    exec (.imul w src) s
      = .next ((s.setHalves w hi lo).setFlags
        (s.flags.mulFlags s.draws (decide (hi.toInt * 2 ^ w.bits + lo.toNat ≠ lo.toInt)))).drawn.advance)
  ∧ ∀ (s : State) (os : Size) (g : Reg) (src : Rm) (imm : BitVec 32), s.placeOk os.width (s.place src) = true →
    let y := s.valueAt os.width (s.place src)
    let fits := fun p : Int => -2 ^ (os.width.bits - 1) ≤ p ∧ p < 2 ^ (os.width.bits - 1)
    (∀ r : BitVec os.width.bits, (r.toInt - (s.reg os.width g).toInt * y.toInt) % 2 ^ os.width.bits = 0 →
      exec (.imulReg os g src) s
        = .next ((s.setReg os.width g r).setFlags
          (s.flags.mulFlags s.draws (decide ¬fits ((s.reg os.width g).toInt * y.toInt)))).drawn.advance)
    ∧ ∀ r : BitVec os.width.bits, (r.toInt - y.toInt * (imm.setWidth os.width.bits).toInt) % 2 ^ os.width.bits = 0 →
      exec (.imulImm os g src imm) s
        = .next ((s.setReg os.width g r).setFlags
          (s.flags.mulFlags s.draws (decide ¬fits (y.toInt * (imm.setWidth os.width.bits).toInt)))).drawn.advance

/-- DIV and IDIV complete where the quotient fits (R424, R425): for the q and r with dividend = q * divisor + r, r below the divisor
(DIV), or r below it in size and 0 or of the dividend's sign (IDIV), AL, AX or EAX takes q and AH, DX or EDX takes r; the dividend is
AX, DX:AX or EDX:EAX; all six flags are free. For a zero divisor and for a quotient that does not fit the width they raise DivisionError, as AAM does for base 0, with no
effect (R444, R701). -/
def Obligations.DivideResults : Prop :=
  (∀ s : State,
    (s.pair .w8 = s.regs.eax.extractLsb' 0 16
      ∧ s.pair .w16 = s.regs.edx.extractLsb' 0 16 ++ s.regs.eax.extractLsb' 0 16
      ∧ s.pair .w32 = s.regs.edx ++ s.regs.eax)
    ∧ (∀ r q : BitVec 8, s.setHalves .w8 r q = s.setRegs { s.regs with eax := s.regs.eax.extractLsb' 16 16 ++ r ++ q })
    ∧ (∀ r q : BitVec 16, s.setHalves .w16 r q
      = s.setRegs { s.regs with eax := s.regs.eax.extractLsb' 16 16 ++ q, edx := s.regs.edx.extractLsb' 16 16 ++ r })
    ∧ ∀ r q : BitVec 32, s.setHalves .w32 r q = s.setRegs { s.regs with eax := q, edx := r })
  ∧ ((∀ (s : State) (w : Width) (src : Rm) (q r : BitVec w.bits), s.placeOk w (s.place src) = true →
    let d := s.valueAt w (s.place src)
    r.toNat < d.toNat → (s.pair w).toNat = q.toNat * d.toNat + r.toNat →
    exec (.div w src) s = .next ((s.setHalves w r q).setFlags (s.flags.divFlags s.draws)).drawn.advance)
  ∧ ∀ (s : State) (w : Width) (src : Rm) (q r : BitVec w.bits), s.placeOk w (s.place src) = true →
    let d := s.valueAt w (s.place src)
    r.toInt.natAbs < d.toInt.natAbs → (r.toInt = 0 ∨ (r.toInt < 0 ↔ (s.pair w).toInt < 0)) →
    (s.pair w).toInt = q.toInt * d.toInt + r.toInt →
    exec (.idiv w src) s = .next ((s.setHalves w r q).setFlags (s.flags.divFlags s.draws)).drawn.advance)
  ∧ ((∀ (s : State) (w : Width) (src : Rm), s.placeOk w (s.place src) = true →
    let d := s.valueAt w (s.place src)
    (d.toNat = 0 → exec (.div w src) s = .fault (.precise .divisionError) ∧ exec (.idiv w src) s = .fault (.precise .divisionError))
      ∧ (d.toNat * 2 ^ w.bits ≤ (s.pair w).toNat → exec (.div w src) s = .fault (.precise .divisionError))
      ∧ ∀ q r : Int, r.natAbs < d.toInt.natAbs → (r = 0 ∨ (r < 0 ↔ (s.pair w).toInt < 0)) →
        (s.pair w).toInt = q * d.toInt + r → (q < -2 ^ (w.bits - 1) ∨ 2 ^ (w.bits - 1) ≤ q) →
        exec (.idiv w src) s = .fault (.precise .divisionError))
  ∧ ∀ s : State, exec (.aam 0) s = .fault (.precise .divisionError))

/-- DAA, DAS, AAA, AAS (R440 to R443), with AL, AH, AF and CF as they were before the instruction on the right, and AAD (R445) complete
in every state, and AAM (R444) with every base but 0: the quotient of AL in AH and the remainder in AL. -/
def Obligations.DecimalResults : Prop :=
  (∀ s : State,
    let al := (s.reg .w8 .eax).toNat
    let ah := (s.reg .w8 .esp).toNat
    let lo := decide (9 < al % 16) || s.flags.af
    let hi := decide (0x99 < al) || s.flags.cf
    let free := Config.freeFlag s.draws
    let add : BitVec 8 := BitVec.ofNat 8 (al + (if lo then 6 else 0) + (if hi then 0x60 else 0))
    let sub : BitVec 8 := BitVec.ofNat 8 (al + 512 - (if lo then 6 else 0) - (if hi then 0x60 else 0))
    let ascii := { s.flags with af := lo, cf := lo, ofl := free .ofl, sf := free .sf, zf := free .zf, pf := free .pf }
    exec .daa s = .next ((s.setReg .w8 .eax add).setFlags
        { s.flags with cf := hi, af := lo, sf := add.msb, zf := decide (add = 0), pf := parity add, ofl := free .ofl }).drawn.advance
      ∧ exec .das s = .next ((s.setReg .w8 .eax sub).setFlags
        { s.flags with
          cf := hi || (lo && decide (al < 6)), af := lo, sf := sub.msb, zf := decide (sub = 0), pf := parity sub,
          ofl := free .ofl }).drawn.advance
      ∧ exec .aaa s = .next ((s.setHalves .w8 (BitVec.ofNat 8 (if lo then ah + 1 + (al + 6) / 256 else ah))
        (BitVec.ofNat 8 ((if lo then al + 6 else al) % 16))).setFlags ascii).drawn.advance
      ∧ exec .aas s = .next ((s.setHalves .w8
        (BitVec.ofNat 8 (if lo then ah + 256 - 1 - (if al < 6 then 1 else 0) else ah))
        (BitVec.ofNat 8 ((if lo then al + 256 - 6 else al) % 16))).setFlags ascii).drawn.advance)
  ∧ (∀ (s : State) (base : Byte),
    let al := (s.reg .w8 .eax).toNat
    let ah := (s.reg .w8 .esp).toNat
    let free := Config.freeFlag s.draws
    let flags := fun r : BitVec 8 =>
      { s.flags with
        sf := r.msb, zf := decide (r = 0), pf := parity r, ofl := free .ofl, af := free .af, cf := free .cf }
    (base ≠ 0 → exec (.aam base) s = .next ((s.setHalves .w8 (BitVec.ofNat 8 (al / base.toNat))
        (BitVec.ofNat 8 (al % base.toNat))).setFlags (flags (BitVec.ofNat 8 (al % base.toNat)))).drawn.advance)
      ∧ exec (.aad base) s = .next ((s.setHalves .w8 0 (BitVec.ofNat 8 (al + ah * base.toNat))).setFlags
        (flags (BitVec.ofNat 8 (al + ah * base.toNat)))).drawn.advance)

/-! ## Results: shifts, rotates, bits -/

/-- The rotates by a nonzero count complete where their operand is inside memory (R470 to R474): ROL and ROR rotate the w bits, CF
taking the bit that came round; RCL and RCR rotate the w + 1 bits of CF and the operand; OF is defined for a count of 1; no other
flag changes. -/
def Obligations.RotateResults : Prop :=
  ∀ (s : State) (w : Width) (dst : Rm) (count : ShiftCount), s.placeOk w (s.place dst) = true →
    let p := s.place dst
    let a := s.valueAt w p
    let n := s.shiftCount count
    let flags := fun (c o : Bool) => { s.flags with cf := c, ofl := if n = 1 then o else Config.freeFlag s.draws .ofl }
    n ≠ 0 →
    (let r := a.rotateLeft n
     exec (.rol w dst count) s
        = .next ((s.wrote w p r).setFlags (flags (r.getLsbD 0) (r.msb ^^ r.getLsbD 0))).drawn.advance)
    ∧ (let r := a.rotateRight n
       exec (.ror w dst count) s
        = .next ((s.wrote w p r).setFlags (flags r.msb (r.msb ^^ r.getLsbD (w.bits - 2)))).drawn.advance)
    ∧ (let x := (BitVec.ofBool s.flags.cf ++ a).rotateLeft n
       let r := x.extractLsb' 0 w.bits
       exec (.rcl w dst count) s = .next ((s.wrote w p r).setFlags (flags x.msb (r.msb ^^ x.msb))).drawn.advance)
    ∧ (let x := (BitVec.ofBool s.flags.cf ++ a).rotateRight n
       let r := x.extractLsb' 0 w.bits
       exec (.rcr w dst count) s
        = .next ((s.wrote w p r).setFlags (flags x.msb (r.msb ^^ r.getLsbD (w.bits - 2)))).drawn.advance)

/-- The shifts by a nonzero count complete where their operand is inside memory (R470, R475 to R477): the operand is multiplied by
2^n modulo 2^w, or divided by 2^n rounding down, unsigned or signed; CF is the last bit shifted out; SF, ZF and PF are those of the
result; OF is defined for a count of 1; AF is free. -/
def Obligations.ShiftResults : Prop :=
  ∀ (s : State) (w : Width) (dst : Rm) (count : ShiftCount), s.placeOk w (s.place dst) = true →
    let p := s.place dst
    let a := s.valueAt w p
    let n := s.shiftCount count
    let free := Config.freeFlag s.draws
    let flags := fun (r : BitVec w.bits) (c o : Bool) =>
      { s.flags with
        cf := c, ofl := if n = 1 then o else free .ofl, sf := r.msb, zf := decide (r = 0), pf := parity r, af := free .af }
    n ≠ 0 →
    (let r := BitVec.ofNat w.bits (a.toNat * 2 ^ n)
     let c := decide (a.toNat * 2 ^ n / 2 ^ w.bits % 2 = 1)
     exec (.shl w dst count) s = .next ((s.wrote w p r).setFlags (flags r c (r.msb ^^ c))).drawn.advance)
    ∧ (let r := BitVec.ofNat w.bits (a.toNat / 2 ^ n)
       let c := decide (a.toNat / 2 ^ (n - 1) % 2 = 1)
       exec (.shr w dst count) s = .next ((s.wrote w p r).setFlags (flags r c a.msb)).drawn.advance)
    ∧ (let r := BitVec.ofInt w.bits (a.toInt / 2 ^ n)
       let c := decide (a.toInt / 2 ^ (n - 1) % 2 = 1)
       exec (.sar w dst count) s = .next ((s.wrote w p r).setFlags (flags r c false)).drawn.advance)

/-- A shift, rotate or double shift whose count is 0 modulo 32 completes and changes nothing but EIP (R470, R480, R481); the count is
the byte modulo 32, 1, or CL modulo 32. -/
def Obligations.ZeroCountChangesNothing : Prop :=
  ∀ (s : State),
    ((∀ n, s.shiftCount (.imm n) = n.toNat % 32) ∧ s.shiftCount .one = 1 ∧ s.shiftCount .cl = (s.regs.ecx).toNat % 32)
      ∧ ∀ count, s.shiftCount count = 0 →
        (∀ (w : Width) (dst : Rm), s.placeOk w (s.place dst) = true →
          exec (.rol w dst count) s = .next s.advance ∧ exec (.ror w dst count) s = .next s.advance
            ∧ exec (.rcl w dst count) s = .next s.advance ∧ exec (.rcr w dst count) s = .next s.advance
            ∧ exec (.shl w dst count) s = .next s.advance ∧ exec (.shr w dst count) s = .next s.advance
            ∧ exec (.sar w dst count) s = .next s.advance)
        ∧ ∀ (os : Size) (dst : Rm) (g : Reg), s.placeOk os.width (s.place dst) = true →
          exec (.shld os dst g count) s = .next s.advance ∧ exec (.shrd os dst g count) s = .next s.advance

/-- SHLD and SHRD complete where their operand is inside memory (R480, R481): for a count up to the width, the high half of the
operands' concatenation shifted left, or the low half of it shifted right, with CF the last bit shifted out; for a count above the
width the result and all six flags are free. -/
def Obligations.DoubleShiftResults : Prop :=
  ∀ (s : State) (os : Size) (dst : Rm) (g : Reg) (count : ShiftCount), s.placeOk os.width (s.place dst) = true →
    let w := os.width
    let p := s.place dst
    let a := s.valueAt w p
    let b := s.reg w g
    let n := s.shiftCount count
    let free := Config.freeFlag s.draws
    let flags := fun (r : BitVec w.bits) (c : Bool) =>
      { s.flags with
        cf := c, ofl := if n = 1 then r.msb ^^ a.msb else free .ofl, sf := r.msb, zf := decide (r = 0), pf := parity r,
        af := free .af }
    (n ≠ 0 → n ≤ w.bits →
      (let r := ((a ++ b) <<< n).extractLsb' w.bits w.bits
       exec (.shld os dst g count) s
          = .next ((s.wrote w p r).setFlags (flags r (a.getLsbD (w.bits - n)))).drawn.advance)
      ∧ (let r := ((b ++ a) >>> n).extractLsb' 0 w.bits
         exec (.shrd os dst g count) s = .next ((s.wrote w p r).setFlags (flags r (a.getLsbD (n - 1)))).drawn.advance))
    ∧ (w.bits < n →
      let t := ((s.wrote w p ((Config.freeWord s.draws).setWidth w.bits)).setFlags (s.flags.divFlags s.draws)).drawn.advance
      exec (.shld os dst g count) s = .next t ∧ exec (.shrd os dst g count) s = .next t)

/-- The operand and the bit of a bit test (R489): an immediate offset modulo w in the operand itself; a register offset modulo w in a
register operand; and for a memory operand a signed register offset q * w + i with 0 <= i < w, which names bit i of the word w/8 * q
bytes on, modulo 2^AS. BT, BTS, BTR and BTC complete where that operand is inside memory (R490 to R493): CF takes the bit, which is
then kept, set, cleared or inverted. BSF and BSR complete where their source is inside memory (R494, R495): the least or the greatest
index of a set bit, with ZF 0; or for a zero source a free value, with ZF 1. -/
def Obligations.BitResults : Prop :=
  (∀ (s : State) (os : Size),
    (∀ dst k, s.bitPlace os dst (.imm k) = (s.place dst, k.toNat % os.width.bits))
      ∧ (∀ r g, s.bitPlace os (.reg r) (.reg g) = (.reg r, (s.reg os.width g).toNat % os.width.bits))
      ∧ ∀ (m : MemRef) (g : Reg) (q : Int) (i : Nat), i < os.width.bits → (s.reg os.width g).toInt = q * os.width.bits + i →
        s.bitPlace os (.mem m) (.reg g)
          = (.mem (s.linear m.seg (truncTo m.ea.size (s.effAddr m.ea + BitVec.ofInt 32 (os.width.bits / 8 * q)))), i))
  ∧ (∀ (s : State) (os : Size) (dst : Rm) (off : BitOff),
    let p := (s.bitPlace os dst off).1
    let i := (s.bitPlace os dst off).2
    let x := s.valueAt os.width p
    let f := s.flags.bitFlags s.draws (decide (x.toNat / 2 ^ i % 2 = 1))
    let one : BitVec os.width.bits := BitVec.twoPow os.width.bits i
    s.placeOk os.width p = true →
    exec (.bt os dst off) s = .next (s.setFlags f).drawn.advance
      ∧ exec (.bts os dst off) s = .next ((s.wrote os.width p (x ||| one)).setFlags f).drawn.advance
      ∧ exec (.btr os dst off) s = .next ((s.wrote os.width p (x &&& ~~~one)).setFlags f).drawn.advance
      ∧ exec (.btc os dst off) s = .next ((s.wrote os.width p (x ^^^ one)).setFlags f).drawn.advance)
  ∧ (∀ (s : State) (os : Size) (g : Reg) (src : Rm), s.placeOk os.width (s.place src) = true →
    let v := s.valueAt os.width (s.place src)
    let result := fun (r : BitVec os.width.bits) (z : Bool) =>
      ((s.setReg os.width g r).setFlags (s.flags.scanFlags s.draws z)).drawn.advance
    (∀ i, v.getLsbD i = true → (∀ j < i, v.getLsbD j = false) →
      exec (.bsf os g src) s = .next (result (BitVec.ofNat os.width.bits i) false))
    ∧ (∀ i, v.getLsbD i = true → (∀ j, i < j → v.getLsbD j = false) →
      exec (.bsr os g src) s = .next (result (BitVec.ofNat os.width.bits i) false))
    ∧ (v = 0 →
      exec (.bsf os g src) s = .next (result ((Config.freeWord s.draws).setWidth os.width.bits) true)
        ∧ exec (.bsr os g src) s = .next (result ((Config.freeWord s.draws).setWidth os.width.bits) true)))

/-! ## Results: data transfer -/

/-- MOV in all its general forms completes where its operands are inside memory (R300, R301), and so does XCHG (R302), which with one
register twice changes nothing. No flag changes. -/
def Obligations.MoveResults : Prop :=
  (∀ (s : State) (w : Width) (dst : Rm) (src : Operand), s.placeOk w (s.place dst) = true → s.operandOk w src = true →
    exec (.mov w dst src) s = .next (s.wrote w (s.place dst) (s.operandValue w src)).advance)
  ∧ (∀ (s : State) (w : Width) (m : Moffs),
    let lin := s.linear m.seg m.off
    s.mapped lin w.bytes = true →
    exec (.movAccMoffs w m) s = .next (s.setReg w .eax (s.load lin w)).advance
      ∧ exec (.movMoffsAcc w m) s = .next (s.store lin w (s.reg w .eax)).advance)
  ∧ (∀ (s : State) (w : Width) (x : Rm) (g : Reg), s.placeOk w (s.place x) = true →
    exec (.xchg w x g) s
      = .next ((s.wrote w (s.place x) (s.reg w g)).setReg w g (s.valueAt w (s.place x))).advance)
  ∧ ∀ (s : State) (w : Width) (g : Reg), exec (.xchg w (.reg g) g) s = .next s.advance

/-- LEA, MOVZX, MOVSX, CBW, CWDE, CWD and CDQ (R304, R305, R309 to R311): LEA in every state with the address alone, cut or
zero-extended to OS; the others keep the unsigned or the signed value of their source in the wider destination. LAHF, SAHF, XLAT and
SETcc (R312 to R315): AH is FLAGS[7:0]; SF, ZF, AF, PF and CF come from AH; AL is the byte at base + AL, where it is inside memory;
SETcc, for each of the sixteen conditions, writes 1 or 0 to a byte inside memory. -/
def Obligations.ConvertResults : Prop :=
  ((∀ (s : State) (os : Size) (g : Reg) (ea : Ea),
    exec (.lea os g ea) s = .next (s.setReg os.width g (BitVec.ofNat os.width.bits (s.effAddr ea).toNat)).advance)
  ∧ (∀ (s : State) (os : Size) (g : Reg) (src : Rm) (v : BitVec os.width.bits), s.placeOk .w8 (s.place src) = true →
    (v.toNat = (s.valueAt .w8 (s.place src)).toNat → exec (.movzxByte os g src) s = .next (s.setReg os.width g v).advance)
      ∧ (v.toInt = (s.valueAt .w8 (s.place src)).toInt → exec (.movsxByte os g src) s = .next (s.setReg os.width g v).advance))
  ∧ (∀ (s : State) (os : Size) (g : Reg) (src : Rm) (v : BitVec os.width.bits), s.placeOk .w16 (s.place src) = true →
    (v.toNat = (s.valueAt .w16 (s.place src)).toNat → exec (.movzxWord os g src) s = .next (s.setReg os.width g v).advance)
      ∧ (v.toInt = (s.valueAt .w16 (s.place src)).toInt → exec (.movsxWord os g src) s = .next (s.setReg os.width g v).advance))
  ∧ (∀ (s : State) (v : BitVec 16), v.toInt = (s.reg .w8 .eax).toInt → exec (.cbw .s16) s = .next (s.setReg .w16 .eax v).advance)
  ∧ (∀ (s : State) (v : BitVec 32), v.toInt = (s.reg .w16 .eax).toInt → exec (.cbw .s32) s = .next (s.setReg .w32 .eax v).advance)
  ∧ ∀ (s : State) (os : Size) (v : BitVec os.width.bits), v.toInt = (if (s.reg os.width .eax).toInt < 0 then -1 else 0) →
    exec (.cwd os) s = .next (s.setReg os.width .edx v).advance)
  ∧ ((∀ s : State,
    (∀ v : BitVec 8,
      v.getLsbD 7 = s.flags.sf → v.getLsbD 6 = s.flags.zf → v.getLsbD 5 = false → v.getLsbD 4 = s.flags.af →
      v.getLsbD 3 = false → v.getLsbD 2 = s.flags.pf → v.getLsbD 1 = false → v.getLsbD 0 = s.flags.cf →
      exec .lahf s = .next (s.setReg .w8 .esp v).advance)
    ∧ exec .sahf s = .next (s.setFlags (s.flags.loadAh (s.reg .w8 .esp))).advance)
  ∧ (∀ (s : State) (as : Size) (seg : SegReg),
    let lin := s.linear seg
      (truncTo as ((s.reg as.width .ebx).setWidth 32 + BitVec.ofNat 32 (s.reg .w8 .eax).toNat))
    s.mapped lin 1 = true → exec (.xlat as seg) s = .next (s.setReg .w8 .eax (s.byteAt lin)).advance)
  ∧ ∀ (s : State) (c : Cond) (dst : Rm), s.placeOk .w8 (s.place dst) = true →
    exec (setccInstr c dst) s = .next (s.wrote .w8 (s.place dst) (if s.flags.cond c then 1 else 0)).advance)

/-- The moves of segment registers and the far-pointer loads complete where their accesses are inside memory and the selector can be
loaded (R306 to R308, R316 to R320): a register destination takes the selector zero-extended to OS, memory 16 bits whatever OS; a far
pointer is read with the register values from before, then the segment register and the general register are written. -/
def Obligations.SegmentMoveResults : Prop :=
  (∀ (s : State) (os : Size) (r : SegReg) (g : Reg),
    exec (.movFromSeg os (.reg g) r) s
      = .next (s.setReg os.width g (BitVec.ofNat os.width.bits (s.segs.get r).sel.toNat)).advance)
  ∧ (∀ (s : State) (os : Size) (r : SegReg) (m : MemRef), s.mapped (s.memAddr m) 2 = true →
    exec (.movFromSeg os (.mem m) r) s = .next (s.store (s.memAddr m) .w16 (s.segs.get r).sel).advance)
  ∧ (∀ (s : State) (r : SegReg) (src : Rm), s.placeOk .w16 (s.place src) = true →
    s.selectorOk r (s.valueAt .w16 (s.place src)) = true →
    exec (.movToSeg r src) s
      = .next (s.setSeg r (s.segmentFor r (s.valueAt .w16 (s.place src)))).advance)
  ∧ ∀ (s : State) (os : Size) (g : Reg) (m : MemRef), s.farOk os m = true →
    let t := fun r => ((s.setSeg r (s.segmentFor r (s.farSel os m))).setReg os.width g (s.load (s.memAddr m) os.width)).advance
    (s.selectorOk .ds (s.farSel os m) = true → exec (.lds os g m) s = .next (t .ds))
      ∧ (s.selectorOk .es (s.farSel os m) = true → exec (.les os g m) s = .next (t .es))
      ∧ (s.selectorOk .ss (s.farSel os m) = true → exec (.lss os g m) s = .next (t .ss))
      ∧ (s.selectorOk .fs (s.farSel os m) = true → exec (.lfs os g m) s = .next (t .fs))
      ∧ (s.selectorOk .gs (s.farSel os m) = true → exec (.lgs os g m) s = .next (t .gs))

/-! ## Results: the stack -/

/-- `Push` and `Pop` (R370): the pointer, SP in real mode and ESP in protected mode, goes down before the write and up after the
read, modulo 2^SW, always through SS, with ESP[31:16] unchanged when SW is 16; a push stores its value at the new top, and a pop
after it answers the value and restores the registers (R369). -/
def Obligations.PushPopRule : Prop :=
  ∀ (s : State) (n : Size) (v : BitVec n.width.bits),
    (s.sw = .s16 ↔ s.mode = .real)
      ∧ s.sp = (match s.mode with
        | .real => (s.regs.esp.setWidth 16).setWidth 32
        | .prot => s.regs.esp)
      ∧ s.linear .ss (truncTo s.sw (s.sp - BitVec.ofNat 32 n.width.bytes)) = s.slot n 1
      ∧ (s.slotOk n 1 = true → ∃ t, s.push n v = .ok t
        ∧ t.sp = truncTo s.sw (s.sp - BitVec.ofNat 32 n.width.bytes)
        ∧ (s.mode = .real → t.regs.esp.extractLsb' 16 16 = s.regs.esp.extractLsb' 16 16)
        ∧ t.load (s.slot n 1) n.width = v
        ∧ (∀ a, Outside a [(s.slot n 1, n.width.bytes)] → t.byteAt a = s.byteAt a)
        ∧ ∃ u, t.pop n = .ok (v, u) ∧ u.regs = s.regs ∧ u.mem = t.mem)
      ∧ (s.popOk n = true → ∃ t, s.pop n = .ok (s.load (s.linear .ss s.sp) n.width, t)
        ∧ t.sp = truncTo s.sw (s.sp + BitVec.ofNat 32 n.width.bytes)
        ∧ (s.mode = .real → t.regs.esp.extractLsb' 16 16 = s.regs.esp.extractLsb' 16 16)
        ∧ t.mem = s.mem)

/-- The pushes complete where their source and their slot are inside memory (R371 to R373, R382): the value pushed is the one from
before the push, also of the stack pointer; a selector is zero-extended to OS; FLAGS is the image of R382. -/
def Obligations.PushResults : Prop :=
  ∀ (s : State) (os : Size), s.slotOk os 1 = true →
    (∀ src, s.placeOk os.width (s.place src) = true →
      exec (.push os src) s = .next (s.pushed os (s.valueAt os.width (s.place src))).advance)
    ∧ (∀ imm : BitVec 32, exec (.pushImm os imm) s = .next (s.pushed os (BitVec.ofNat os.width.bits imm.toNat)).advance)
    ∧ (let seg := fun r => (s.pushed os (BitVec.ofNat os.width.bits (s.segs.get r).sel.toNat)).advance
       exec (.pushEs os) s = .next (seg .es) ∧ exec (.pushCs os) s = .next (seg .cs)
        ∧ exec (.pushSs os) s = .next (seg .ss) ∧ exec (.pushDs os) s = .next (seg .ds)
        ∧ exec (.pushFs os) s = .next (seg .fs) ∧ exec (.pushGs os) s = .next (seg .gs))
    ∧ exec (.pushf os) s = .next (s.pushed os (s.flags.pushImage os)).advance

/-- The pops complete where the top of the stack, and a memory destination, are inside memory and a selector can be loaded (R374 to
R376, R383, R384): POP of the stack pointer leaves the popped value; the address of a memory destination is computed after the pop. -/
def Obligations.PopResults : Prop :=
  ∀ (s : State) (os : Size), s.popOk os = true →
    let t := s.popped os
    let v := s.popValue os
    (∀ g, exec (.pop os g) s = .next (t.setReg os.width g v).advance)
      ∧ (∀ dst, t.placeOk os.width (t.place dst) = true →
        exec (.popRm os dst) s = .next (t.wrote os.width (t.place dst) v).advance)
      ∧ (let sel := BitVec.ofNat 16 v.toNat
         let seg := fun r => (t.setSeg r (t.segmentFor r sel)).advance
         (t.selectorOk .es sel = true → exec (.popEs os) s = .next (seg .es))
          ∧ (t.selectorOk .ss sel = true → exec (.popSs os) s = .next (seg .ss))
          ∧ (t.selectorOk .ds sel = true → exec (.popDs os) s = .next (seg .ds))
          ∧ (t.selectorOk .fs sel = true → exec (.popFs os) s = .next (seg .fs))
          ∧ (t.selectorOk .gs sel = true → exec (.popGs os) s = .next (seg .gs)))
      ∧ (os = .s16 → exec .popf s = .next ((s.popped .s16).setFlags (s.flags.load16 (s.popValue .s16))).advance)
      ∧ (os = .s32 → exec .popfd s = .next ((s.popped .s32).setFlags (s.flags.loadPopfd (s.popValue .s32))).advance)

/-- PUSHA and PUSHAD complete where their eight slots are inside memory (R380): the eight registers, the stack pointer as it was before
any push, from the first slot down. POPA and POPAD (R381): the registers take the slots from the top upwards in the order EDI, ESI,
EBP, (discarded), EBX, EDX, ECX, EAX, and the stack pointer ends eight slots higher. -/
def Obligations.PushaPopaResults : Prop :=
  (∀ (s : State) (os : Size), (∀ k, 1 ≤ k → k ≤ 8 → s.slotOk os k = true) →
    let v := fun r => s.reg os.width r
    let t := (((((((s.pushed os (v .eax)).pushed os (v .ecx)).pushed os (v .edx)).pushed os (v .ebx)).pushed os (v .esp)).pushed os
      (v .ebp)).pushed os (v .esi)).pushed os (v .edi)
    exec (.pusha os) s = .next t.advance
      ∧ t.sp = truncTo s.sw (s.sp - BitVec.ofNat 32 (8 * os.width.bytes)))
  ∧ (∀ (s : State) (os : Size), (∀ k, k < 8 → s.upSlotOk os k = true) →
    ∃ t, exec (.popa os) s = .next t
      ∧ t.reg os.width .edi = s.load (s.upSlot os 0) os.width ∧ t.reg os.width .esi = s.load (s.upSlot os 1) os.width
      ∧ t.reg os.width .ebp = s.load (s.upSlot os 2) os.width ∧ t.reg os.width .ebx = s.load (s.upSlot os 4) os.width
      ∧ t.reg os.width .edx = s.load (s.upSlot os 5) os.width ∧ t.reg os.width .ecx = s.load (s.upSlot os 6) os.width
      ∧ t.reg os.width .eax = s.load (s.upSlot os 7) os.width
      ∧ t.sp = truncTo s.sw (s.sp + BitVec.ofNat 32 (8 * os.width.bytes))
      ∧ t.mem = s.mem ∧ t.flags = s.flags ∧ t.eip = s.next)

/-- ENTER completes where its slots, and the slots of the old frame that it copies, are inside memory (R385): the level is taken
modulo 32; the frame pointer takes the stack pointer after the first push, which holds the old frame pointer; slot j + 1 takes what
the old frame holds j slots below the old frame pointer, 1 <= j < level, unless the pushes before have stored there; a level above 0
ends with a push of the frame; the stack pointer goes down by all the pushes and by alloc. LEAVE completes where the slot at the frame
pointer is inside memory (R386): the stack pointer takes the frame pointer, by SW, and the frame pointer is popped, by OS. -/
def Obligations.EnterLeaveResults : Prop :=
  (∀ (s : State) (os : Size) (alloc : BitVec 16) (level : Byte),
    let k := level.toNat % 32
    let old := (s.reg s.sw.width .ebp).setWidth 32
    let frame := truncTo s.sw (s.sp - BitVec.ofNat 32 os.width.bytes)
    let copied := fun j : Nat => s.linear .ss (truncTo s.sw (old - BitVec.ofNat 32 (j * os.width.bytes)))
    (∀ j, 1 ≤ j → j ≤ k + 1 → s.slotOk os j = true) →
    (∀ j, 1 ≤ j → j < k → s.mapped (copied j) os.width.bytes = true) →
    ∃ t, exec (.enter os alloc level) s = .next t
      ∧ (t.reg s.sw.width .ebp).setWidth 32 = frame
      ∧ t.sp = truncTo s.sw (s.sp - BitVec.ofNat 32 ((k + 1) * os.width.bytes) - alloc.setWidth 32)
      ∧ t.load (s.slot os 1) os.width = s.reg os.width .ebp
      ∧ (∀ j, 1 ≤ j → j < k → (∀ m < os.width.bytes, Outside (copied j + BitVec.ofNat 32 m) (s.slots os j)) →
        t.load (s.slot os (j + 1)) os.width = s.load (copied j) os.width)
      ∧ (k ≠ 0 → t.load (s.slot os (k + 1)) os.width = BitVec.ofNat os.width.bits frame.toNat)
      ∧ t.flags = s.flags ∧ t.eip = s.next)
  ∧ (∀ (s : State) (os : Size),
    let t := s.setSp ((s.reg s.sw.width .ebp).setWidth 32)
    t.popOk os = true → exec (.leave os) s = .next ((t.popped os).setReg os.width .ebp (t.popValue os)).advance)

/-! ## Results: control transfers -/

/-- Near targets (R520): next plus the displacement modulo 2^OS, a byte displacement sign-extended; EIP takes a target modulo
2^min(OS, CSZ), and CS is unchanged. The near branches complete in every state (R521 to R525): Jcc by its condition, JCXZ by the
count register, LOOP, LOOPE and LOOPNE after counting down, JMP always. The mode is sampled whether or not the branch is taken. -/
def Obligations.BranchResults : Prop :=
  (∀ (s : State) (os : Size),
    (∀ rel, ((s.nearTarget os rel).toNat : Int) = (s.next.toNat + rel.toInt) % 2 ^ os.width.bits)
      ∧ (∀ t, (s.setNearEip os t).eip.toNat = t.toNat % 2 ^ min os.width.bits s.cyc.csz.width.bits)
      ∧ (∀ t, (s.setNearEip os t).setEip s.eip = s)
      ∧ (∀ b : Byte, (relValue (.short b)).toInt = b.toInt))
  ∧ (∀ (s : State) (os as : Size),
    let m := s.sampleMode
    let go := fun (u : State) (rel : BitVec 32) => u.setEip (truncTo (minSize os u.cyc.csz) (truncTo os (u.next + rel)))
    (∀ (c : Cond) (rel : Rel), exec (jccInstr c os rel) s = .next (if s.flags.cond c then go m (relValue rel) else m.advance))
      ∧ (∀ rel, exec (.jmpRel os rel) s = .next (go m (relValue rel)))
      ∧ (∀ rel : Byte,
        exec (.jcxz os as rel) s = .next (if (s.reg as.width .ecx).toNat = 0 then go m (rel.signExtend 32) else m.advance))
      ∧ ∀ rel : Byte,
        let c := s.reg as.width .ecx - 1
        let u := m.setReg as.width .ecx c
        let r := rel.signExtend 32
        exec (.loop os as rel) s = .next (if c ≠ 0 then go u r else u.advance)
          ∧ exec (.loope os as rel) s = .next (if c ≠ 0 ∧ s.flags.zf = true then go u r else u.advance)
          ∧ exec (.loopne os as rel) s = .next (if c ≠ 0 ∧ s.flags.zf = false then go u r else u.advance))

/-- Near indirect jumps, near calls and returns complete where their operand, slot and stack top are inside memory, all in the sampled
mode (R526, R530, R531, R534): a call pushes the return address modulo 2^OS, its target being read before the push; a return releases
the immediate's bytes after the pop. -/
def Obligations.NearCallResults : Prop :=
  ∀ (s : State) (os : Size),
    let m := s.sampleMode
    let go := fun (u : State) (t : BitVec 32) => u.setEip (truncTo (minSize os s.cyc.csz) t)
    let ret := BitVec.ofNat os.width.bits s.next.toNat
    (∀ src, m.placeOk os.width (m.place src) = true →
      exec (.jmpInd os src) s = .next (go m ((m.valueAt os.width (m.place src)).setWidth 32)))
    ∧ (m.slotOk os 1 = true →
      (∀ rel, exec (.callRel os rel) s = .next (go (m.pushed os ret) (truncTo os (s.next + rel))))
      ∧ ∀ src, m.placeOk os.width (m.place src) = true →
        exec (.callInd os src) s = .next (go (m.pushed os ret) ((m.valueAt os.width (m.place src)).setWidth 32)))
    ∧ (m.popOk os = true →
      exec (.ret os) s = .next (go (m.popped os) ((m.popValue os).setWidth 32))
      ∧ ∀ imm, exec (.retImm os imm) s
        = .next (go ((m.popped os).setSp ((m.popped os).sp + imm.setWidth 32)) ((m.popValue os).setWidth 32)))

/-- `FarTransfer(sel, off)` (R529) loads CS and then truncates the offset to the new code size; it faults exactly where the selector
cannot be loaded. Far jumps, calls and returns complete where their pointer and stack slots are inside memory and CS can take the
selector, all in the sampled mode (R527, R528, R532, R533, R535): a call transfers first and then pushes the old CS, zero-extended to
OS, and the return address; a return pops offset and selector, releases the immediate's bytes, and transfers. -/
def Obligations.FarCallResults : Prop :=
  (∀ (s : State) (sel : BitVec 16) (off : BitVec 32),
    (∀ k, s.setSelector .cs sel = .error k → s.farTransfer sel off = .error k)
      ∧ ∀ t, s.setSelector .cs sel = .ok t →
        s.farTransfer sel off
          = .ok (t.setEip (if t.mode = .prot ∧ t.segs.cs.desc.is32 = true then off else BitVec.ofNat 32 (off.toNat % 2 ^ 16))))
  ∧ (∀ (s : State) (os : Size),
    let m := s.sampleMode
    let call := fun (sel : BitVec 16) (off : BitVec 32) =>
      ((m.transferred sel off).pushed os (BitVec.ofNat os.width.bits s.segs.cs.sel.toNat)).pushed os
        (BitVec.ofNat os.width.bits s.next.toNat)
    (∀ sel off, m.selectorOk .cs sel = true →
      exec (.jmpFar os off sel) s = .next (m.transferred sel off)
        ∧ (m.slotOk os 1 = true → m.slotOk os 2 = true → exec (.callFar os off sel) s = .next (call sel off)))
    ∧ (∀ p, m.farOk os p = true → m.selectorOk .cs (m.farSel os p) = true →
      exec (.jmpFarInd os p) s = .next (m.transferred (m.farSel os p) (m.farOff os p))
        ∧ (m.slotOk os 1 = true → m.slotOk os 2 = true →
          exec (.callFarInd os p) s = .next (call (m.farSel os p) (m.farOff os p))))
    ∧ (m.popOk os = true → (m.popped os).popOk os = true →
      let u := (m.popped os).popped os
      let sel := BitVec.ofNat 16 ((m.popped os).popValue os).toNat
      let off := (m.popValue os).setWidth 32
      m.selectorOk .cs sel = true →
      exec (.retf os) s = .next (u.transferred sel off)
        ∧ ∀ imm, exec (.retfImm os imm) s = .next ((u.setSp (u.sp + imm.setWidth 32)).transferred sel off)))

/-- INT n, INT3 and INTO complete where their delivery can be made (R540 to R542): a delivery with the next address as return address,
and one more level of nesting, whatever IF is; INTO with OF 0 only samples the mode and advances. IRET and IRETD complete where their
three slots are inside memory and CS can take the selector (R560): they pop offset, selector and image, transfer, load FLAGS from the
image, and take one level of nesting off if there is one. -/
def Obligations.InterruptResults : Prop :=
  (∀ s : State,
    let t := fun v => (s.delivered v s.next).setIntDepth (s.intDepth + 1)
    (∀ v, s.deliverOk v s.next = true → exec (.int v) s = .next (t v))
      ∧ (s.deliverOk 3 s.next = true → exec .int3 s = .next (t 3))
      ∧ (s.flags.ofl = true → s.deliverOk 4 s.next = true → exec .into s = .next (t 4))
      ∧ (s.flags.ofl = false → exec .into s = .next s.sampleMode.advance))
  ∧ (∀ (s : State) (os : Size),
    let a := s.sampleMode
    let b := a.popped os
    let c := b.popped os
    let sel := BitVec.ofNat 16 (b.popValue os).toNat
    a.popOk os = true → b.popOk os = true → c.popOk os = true → a.selectorOk .cs sel = true →
    ∃ t, exec (.iret os) s = .next t
      ∧ t = ((((c.popped os).transferred sel ((a.popValue os).setWidth 32)).setFlags t.flags).setIntDepth
        (if s.intDepth = 0 then 0 else s.intDepth - 1))
      ∧ (os = .s16 → t.flags = s.flags.load16 (c.popValue .s16))
      ∧ (os = .s32 → t.flags = s.flags.loadIretd (c.popValue .s32)))

/-! ## Results: strings, ports, flags, system -/

/-- The string instructions without repetition complete where their elements are inside memory (R580, R582, R584 to R591): one element
moved, compared, stored, loaded, scanned, read from or written to port DX; the source at `src:SI|ESI`, the destination at
`ES:DI|EDI`; each index stepped by the element size, downwards if DF is 1, modulo 2^AS. -/
def Obligations.StringOnceResults : Prop :=
  ∀ (s : State) (os as : Size) (seg : SegReg) (wide : Bool),
    let w := if wide then os.width else .w8
    let step := fun (q : Reg) (t : State) => t.setReg as.width q
      (if s.flags.df then s.reg as.width q - BitVec.ofNat as.width.bits w.bytes
        else s.reg as.width q + BitVec.ofNat as.width.bits w.bytes)
    let src := s.linear seg ((s.reg as.width .esi).setWidth 32)
    let dst := s.linear .es ((s.reg as.width .edi).setWidth 32)
    let port := s.reg .w16 .edx
    let pick := fun (x y : Instr) => if wide then y else x
    (s.mapped src w.bytes = true → s.mapped dst w.bytes = true →
      exec (pick (.movsb as seg false) (.movsw os as seg false)) s
          = .next (step .edi (step .esi (s.store dst w (s.load src w)))).advance
        ∧ exec (pick (.cmpsb as seg .once) (.cmpsw os as seg .once)) s
          = .next (step .edi (step .esi (s.setFlags (s.flags.subFlags (s.load src w) (s.load dst w) false).2))).advance)
    ∧ (s.mapped dst w.bytes = true →
      exec (pick (.stosb as false) (.stosw os as false)) s = .next (step .edi (s.store dst w (s.reg w .eax))).advance
        ∧ exec (pick (.scasb as .once) (.scasw os as .once)) s
          = .next (step .edi (s.setFlags (s.flags.subFlags (s.reg w .eax) (s.load dst w) false).2)).advance
        ∧ exec (pick (.insb as false) (.insw os as false)) s
          = .next (step .edi ((s.ioRead port w).2.store dst w (s.ioRead port w).1)).advance)
    ∧ (s.mapped src w.bytes = true →
      exec (pick (.lodsb as seg false) (.lodsw os as seg false)) s = .next (step .esi (s.setReg w .eax (s.load src w))).advance
        ∧ exec (pick (.outsb as seg false) (.outsw os as seg false)) s
          = .next (step .esi (s.ioWrite port w (s.load src w))).advance)

/-- Every string instruction with a repeat prefix repeats its single form as R580 and R581 say (`Repeats`): not at all with count 0;
else an iteration, the count stepped down, and so on, REPE and REPNE ending early by ZF; all in one step; a faulting iteration leaves
the state after the completed ones. -/
def Obligations.StringRepetition : Prop :=
  ∀ (os as : Size) (seg : SegReg),
    Repeats (exec (.movsb as seg false)) (exec (.movsb as seg true)) as (fun _ => false)
      ∧ Repeats (exec (.movsw os as seg false)) (exec (.movsw os as seg true)) as (fun _ => false)
      ∧ Repeats (exec (.stosb as false)) (exec (.stosb as true)) as (fun _ => false)
      ∧ Repeats (exec (.stosw os as false)) (exec (.stosw os as true)) as (fun _ => false)
      ∧ Repeats (exec (.lodsb as seg false)) (exec (.lodsb as seg true)) as (fun _ => false)
      ∧ Repeats (exec (.lodsw os as seg false)) (exec (.lodsw os as seg true)) as (fun _ => false)
      ∧ Repeats (exec (.insb as false)) (exec (.insb as true)) as (fun _ => false)
      ∧ Repeats (exec (.insw os as false)) (exec (.insw os as true)) as (fun _ => false)
      ∧ Repeats (exec (.outsb as seg false)) (exec (.outsb as seg true)) as (fun _ => false)
      ∧ Repeats (exec (.outsw os as seg false)) (exec (.outsw os as seg true)) as (fun _ => false)
      ∧ Repeats (exec (.cmpsb as seg .once)) (exec (.cmpsb as seg .repe)) as (fun f => !f.zf)
      ∧ Repeats (exec (.cmpsb as seg .once)) (exec (.cmpsb as seg .repne)) as (fun f => f.zf)
      ∧ Repeats (exec (.cmpsw os as seg .once)) (exec (.cmpsw os as seg .repe)) as (fun f => !f.zf)
      ∧ Repeats (exec (.cmpsw os as seg .once)) (exec (.cmpsw os as seg .repne)) as (fun f => f.zf)
      ∧ Repeats (exec (.scasb as .once)) (exec (.scasb as .repe)) as (fun f => !f.zf)
      ∧ Repeats (exec (.scasb as .once)) (exec (.scasb as .repne)) as (fun f => f.zf)
      ∧ Repeats (exec (.scasw os as .once)) (exec (.scasw os as .repe)) as (fun f => !f.zf)
      ∧ Repeats (exec (.scasw os as .once)) (exec (.scasw os as .repne)) as (fun f => f.zf)

/-- REP STOS completes where all its elements are inside memory (R580, R582, R586): the count ends at 0, every element holds the
accumulator (AL, AX or EAX by the element's width), the index has moved past them all, and no other byte of memory changes. -/
def Obligations.RepeatedStoreFills : Prop :=
  ∀ (s : State) (as os : Size) (wide : Bool),
    let w := if wide then os.width else .w8
    let n := (s.count as).toNat
    (∀ j < n, s.mapped (s.dstAt as w j) w.bytes = true) →
    ∃ t, exec (if wide then .stosw os as true else .stosb as true) s = .next t
      ∧ t.count as = 0 ∧ t.eip = s.next
      ∧ (t.index as .edi).toNat =
        (if s.flags.df then (s.index as .edi).toNat + (2 ^ as.width.bits - w.bytes) * n else (s.index as .edi).toNat + w.bytes * n)
          % 2 ^ as.width.bits
      ∧ (∀ j < n, t.load (s.dstAt as w j) w = s.reg w .eax)
      ∧ ∀ a, Outside a (s.elements as w true) → t.byteAt a = s.byteAt a

/-- The host builds the I/O map by registrations of port lists (R174, R744): a registration gives its device every port of its list, the
later one winning, leaves every other port its device, and changes nothing else; with no registration no port has a device. IN and
OUT complete in every state, with the port immediate or in DX (R620 to R623): the device of a mapped port is called, its answer a
free value; an unmapped port reads as the sentinel of R173 (0xFF, 0xFFFF, or P_UNMAPPED_IN32, which is 0x0000FFFF or 0xFFFFFFFF) and
drops a write (R172). -/
def Obligations.PortResults : Prop :=
  (∀ (s : State) (ports : List (BitVec 16)) (d : Nat),
    (∀ port, (s.registerPorts ports d).deviceOf port = if port ∈ ports then some d else s.deviceOf port)
      ∧ { s.registerPorts ports d with params := { s.params with ioMap := [] } } = { s with params := { s.params with ioMap := [] } }
      ∧ { (s.registerPorts ports d).params with ioMap := [] } = { s.params with ioMap := [] })
  ∧ (∀ s : State, s.params.ioMap = [] → ∀ port, s.deviceOf port = none)
  ∧ ∀ (s : State) (w : Width) (b : Byte),
    let inp := fun port : BitVec 16 =>
      match s.deviceOf port with
      | some d =>
        let v := (Config.deviceRead s.draws d port w).setWidth w.bits
        ((s.logIo (.read d port w (v.setWidth 32))).drawn.setReg w .eax v).advance
      | none => (s.setReg w .eax (s.unmappedValue w)).advance
    let out := fun port : BitVec 16 =>
      match s.deviceOf port with
      | some d => (s.logIo (.write d port w ((s.reg w .eax).setWidth 32))).advance
      | none => s.advance
    s.unmappedValue .w8 = 0xFF ∧ s.unmappedValue .w16 = 0xFFFF
      ∧ (s.unmappedValue .w32 = 0x0000FFFF ∨ s.unmappedValue .w32 = 0xFFFFFFFF)
      ∧ exec (.inImm w b) s = .next (inp (BitVec.ofNat 16 b.toNat))
      ∧ exec (.inDx w) s = .next (inp (BitVec.ofNat 16 s.regs.edx.toNat))
      ∧ exec (.outImm w b) s = .next (out (BitVec.ofNat 16 b.toNat))
      ∧ exec (.outDx w) s = .next (out (BitVec.ofNat 16 s.regs.edx.toNat))

/-- The flag instructions, NOP and WAIT complete in every state, each with its own flag and no other (R69, R630 to R638). HLT with IF 1
halts after the advance, and with IF 0 raises HaltWithInterruptsDisabled (R640, R704). -/
def Obligations.FlagControlResults : Prop :=
  (∀ s : State,
    exec .clc s = .next (s.setFlags { s.flags with cf := false }).advance
      ∧ exec .stc s = .next (s.setFlags { s.flags with cf := true }).advance
      ∧ exec .cmc s = .next (s.setFlags { s.flags with cf := !s.flags.cf }).advance
      ∧ exec .cli s = .next (s.setFlags { s.flags with ifl := false }).advance
      ∧ exec .sti s = .next (s.setFlags { s.flags with ifl := true }).advance
      ∧ exec .cld s = .next (s.setFlags { s.flags with df := false }).advance
      ∧ exec .std s = .next (s.setFlags { s.flags with df := true }).advance
      ∧ exec .nop s = .next s.advance ∧ exec .wait s = .next s.advance)
  ∧ (∀ s : State,
    (s.flags.ifl = true → exec .hlt s = .next (s.advance.setHalted true))
      ∧ (s.flags.ifl = false → exec .hlt s = .fault (.precise .haltWithInterruptsDisabled)))

/-- The moves of control registers, LMSW, SMSW and CLTS complete where their operand is inside memory (R650, R651, R659 to R661): LMSW
can set PE and not clear it; SMSW to a 32-bit register leaves its upper half free. LGDT, LIDT, SGDT and SIDT complete where their six
bytes are inside memory (R238, R655 to R658): the limit at EA, the base at EA + 2, of which only 24 bits count when OS is 16. -/
def Obligations.SystemRegisterResults : Prop :=
  ((∀ (s : State) (c : CReg) (g : Reg),
    exec (.movToCr c g) s = .next (s.setCr c (s.regs.get g)).advance
      ∧ exec (.movFromCr g c) s = .next (s.setReg .w32 g (s.cr.get c)).advance)
  ∧ (∀ (s : State) (src : Rm), s.placeOk .w16 (s.place src) = true →
    let v : BitVec 32 := (s.valueAt .w16 (s.place src)).setWidth 32
    exec (.lmsw src) s = .next (s.setCr .cr0 ((s.cr.cr0 &&& 0xFFFFFFF1) ||| (v &&& 0x0000000F))).advance)
  ∧ (∀ (s : State) (os : Size) (m : MemRef), s.mapped (s.memAddr m) 2 = true →
    exec (.smsw os (.mem m)) s = .next (s.store (s.memAddr m) .w16 (s.cr.cr0.extractLsb' 0 16)).advance)
  ∧ (∀ (s : State) (g : Reg),
    exec (.smsw .s16 (.reg g)) s = .next (s.setReg .w16 g (s.cr.cr0.extractLsb' 0 16)).advance
      ∧ exec (.smsw .s32 (.reg g)) s
        = .next (s.setReg .w32 g ((Config.freeWord s.draws).extractLsb' 16 16 ++ s.cr.cr0.extractLsb' 0 16)).drawn.advance)
  ∧ ∀ s : State, exec .clts s = .next (s.setCr .cr0 (s.cr.cr0 &&& 0xFFFFFFF7)).advance)
  ∧ (∀ (s : State) (os : Size) (m : MemRef), s.tableOk m = true →
    let cut := fun b : BitVec 32 => if os = .s16 then BitVec.ofNat 32 (b.toNat % 2 ^ 24) else b
    let lim := s.memAddr m
    let base := s.linear m.seg (truncTo m.ea.size (s.effAddr m.ea + 2))
    let v : TableReg := ⟨cut (s.load base .w32), s.load lim .w16⟩
    exec (.lgdt os m) s = .next (s.setGdtr v).advance ∧ exec (.lidt os m) s = .next (s.setIdtr v).advance
      ∧ exec (.sgdt os m) s = .next ((s.store lim .w16 s.gdtr.limit).store base .w32 (cut s.gdtr.base)).advance
      ∧ exec (.sidt os m) s = .next ((s.store lim .w16 s.idtr.limit).store base .w32 (cut s.idtr.base)).advance)
end

