-- ==== Sys2Proof/Laws/State.lean ====
section
/-! SUPPORT. What each update of the state does to each field: one lemma per field per update. -/

namespace Sys2Proof.Machine

variable (s : State)

@[simp] theorem State.setRegs_regs (v : Regs) : (s.setRegs v).regs = v := rfl
@[simp] theorem State.setRegs_eip (v : Regs) : (s.setRegs v).eip = s.eip := rfl
@[simp] theorem State.setRegs_flags (v : Regs) : (s.setRegs v).flags = s.flags := rfl
@[simp] theorem State.setRegs_segs (v : Regs) : (s.setRegs v).segs = s.segs := rfl
@[simp] theorem State.setRegs_cr (v : Regs) : (s.setRegs v).cr = s.cr := rfl
@[simp] theorem State.setRegs_gdtr (v : Regs) : (s.setRegs v).gdtr = s.gdtr := rfl
@[simp] theorem State.setRegs_idtr (v : Regs) : (s.setRegs v).idtr = s.idtr := rfl
@[simp] theorem State.setRegs_mode (v : Regs) : (s.setRegs v).mode = s.mode := rfl
@[simp] theorem State.setRegs_latch (v : Regs) : (s.setRegs v).latch = s.latch := rfl
@[simp] theorem State.setRegs_halted (v : Regs) : (s.setRegs v).halted = s.halted := rfl
@[simp] theorem State.setRegs_intDepth (v : Regs) : (s.setRegs v).intDepth = s.intDepth := rfl
@[simp] theorem State.setRegs_cyc (v : Regs) : (s.setRegs v).cyc = s.cyc := rfl
@[simp] theorem State.setRegs_mem (v : Regs) : (s.setRegs v).mem = s.mem := rfl
@[simp] theorem State.setRegs_ioLog (v : Regs) : (s.setRegs v).ioLog = s.ioLog := rfl
@[simp] theorem State.setRegs_params (v : Regs) : (s.setRegs v).params = s.params := rfl
@[simp] theorem State.setRegs_draws (v : Regs) : (s.setRegs v).draws = s.draws := rfl

@[simp] theorem State.setEip_regs (v : BitVec 32) : (s.setEip v).regs = s.regs := rfl
@[simp] theorem State.setEip_eip (v : BitVec 32) : (s.setEip v).eip = v := rfl
@[simp] theorem State.setEip_flags (v : BitVec 32) : (s.setEip v).flags = s.flags := rfl
@[simp] theorem State.setEip_segs (v : BitVec 32) : (s.setEip v).segs = s.segs := rfl
@[simp] theorem State.setEip_cr (v : BitVec 32) : (s.setEip v).cr = s.cr := rfl
@[simp] theorem State.setEip_gdtr (v : BitVec 32) : (s.setEip v).gdtr = s.gdtr := rfl
@[simp] theorem State.setEip_idtr (v : BitVec 32) : (s.setEip v).idtr = s.idtr := rfl
@[simp] theorem State.setEip_mode (v : BitVec 32) : (s.setEip v).mode = s.mode := rfl
@[simp] theorem State.setEip_latch (v : BitVec 32) : (s.setEip v).latch = s.latch := rfl
@[simp] theorem State.setEip_halted (v : BitVec 32) : (s.setEip v).halted = s.halted := rfl
@[simp] theorem State.setEip_intDepth (v : BitVec 32) : (s.setEip v).intDepth = s.intDepth := rfl
@[simp] theorem State.setEip_cyc (v : BitVec 32) : (s.setEip v).cyc = s.cyc := rfl
@[simp] theorem State.setEip_mem (v : BitVec 32) : (s.setEip v).mem = s.mem := rfl
@[simp] theorem State.setEip_ioLog (v : BitVec 32) : (s.setEip v).ioLog = s.ioLog := rfl
@[simp] theorem State.setEip_params (v : BitVec 32) : (s.setEip v).params = s.params := rfl
@[simp] theorem State.setEip_draws (v : BitVec 32) : (s.setEip v).draws = s.draws := rfl

@[simp] theorem State.setFlags_regs (v : Flags) : (s.setFlags v).regs = s.regs := rfl
@[simp] theorem State.setFlags_eip (v : Flags) : (s.setFlags v).eip = s.eip := rfl
@[simp] theorem State.setFlags_flags (v : Flags) : (s.setFlags v).flags = v := rfl
@[simp] theorem State.setFlags_segs (v : Flags) : (s.setFlags v).segs = s.segs := rfl
@[simp] theorem State.setFlags_cr (v : Flags) : (s.setFlags v).cr = s.cr := rfl
@[simp] theorem State.setFlags_gdtr (v : Flags) : (s.setFlags v).gdtr = s.gdtr := rfl
@[simp] theorem State.setFlags_idtr (v : Flags) : (s.setFlags v).idtr = s.idtr := rfl
@[simp] theorem State.setFlags_mode (v : Flags) : (s.setFlags v).mode = s.mode := rfl
@[simp] theorem State.setFlags_latch (v : Flags) : (s.setFlags v).latch = s.latch := rfl
@[simp] theorem State.setFlags_halted (v : Flags) : (s.setFlags v).halted = s.halted := rfl
@[simp] theorem State.setFlags_intDepth (v : Flags) : (s.setFlags v).intDepth = s.intDepth := rfl
@[simp] theorem State.setFlags_cyc (v : Flags) : (s.setFlags v).cyc = s.cyc := rfl
@[simp] theorem State.setFlags_mem (v : Flags) : (s.setFlags v).mem = s.mem := rfl
@[simp] theorem State.setFlags_ioLog (v : Flags) : (s.setFlags v).ioLog = s.ioLog := rfl
@[simp] theorem State.setFlags_params (v : Flags) : (s.setFlags v).params = s.params := rfl
@[simp] theorem State.setFlags_draws (v : Flags) : (s.setFlags v).draws = s.draws := rfl

@[simp] theorem State.setSeg_regs (r : SegReg) (v : Segment) : (s.setSeg r v).regs = s.regs := rfl
@[simp] theorem State.setSeg_eip (r : SegReg) (v : Segment) : (s.setSeg r v).eip = s.eip := rfl
@[simp] theorem State.setSeg_flags (r : SegReg) (v : Segment) : (s.setSeg r v).flags = s.flags := rfl
@[simp] theorem State.setSeg_segs (r : SegReg) (v : Segment) : (s.setSeg r v).segs = s.segs.set r v := rfl
@[simp] theorem State.setSeg_cr (r : SegReg) (v : Segment) : (s.setSeg r v).cr = s.cr := rfl
@[simp] theorem State.setSeg_gdtr (r : SegReg) (v : Segment) : (s.setSeg r v).gdtr = s.gdtr := rfl
@[simp] theorem State.setSeg_idtr (r : SegReg) (v : Segment) : (s.setSeg r v).idtr = s.idtr := rfl
@[simp] theorem State.setSeg_mode (r : SegReg) (v : Segment) : (s.setSeg r v).mode = s.mode := rfl
@[simp] theorem State.setSeg_latch (r : SegReg) (v : Segment) : (s.setSeg r v).latch = s.latch := rfl
@[simp] theorem State.setSeg_halted (r : SegReg) (v : Segment) : (s.setSeg r v).halted = s.halted := rfl
@[simp] theorem State.setSeg_intDepth (r : SegReg) (v : Segment) : (s.setSeg r v).intDepth = s.intDepth := rfl
@[simp] theorem State.setSeg_cyc (r : SegReg) (v : Segment) : (s.setSeg r v).cyc = s.cyc := rfl
@[simp] theorem State.setSeg_mem (r : SegReg) (v : Segment) : (s.setSeg r v).mem = s.mem := rfl
@[simp] theorem State.setSeg_ioLog (r : SegReg) (v : Segment) : (s.setSeg r v).ioLog = s.ioLog := rfl
@[simp] theorem State.setSeg_params (r : SegReg) (v : Segment) : (s.setSeg r v).params = s.params := rfl
@[simp] theorem State.setSeg_draws (r : SegReg) (v : Segment) : (s.setSeg r v).draws = s.draws := rfl

@[simp] theorem State.setCr_regs (c : CReg) (v : BitVec 32) : (s.setCr c v).regs = s.regs := rfl
@[simp] theorem State.setCr_eip (c : CReg) (v : BitVec 32) : (s.setCr c v).eip = s.eip := rfl
@[simp] theorem State.setCr_flags (c : CReg) (v : BitVec 32) : (s.setCr c v).flags = s.flags := rfl
@[simp] theorem State.setCr_segs (c : CReg) (v : BitVec 32) : (s.setCr c v).segs = s.segs := rfl
@[simp] theorem State.setCr_cr (c : CReg) (v : BitVec 32) : (s.setCr c v).cr = s.cr.set c v := rfl
@[simp] theorem State.setCr_gdtr (c : CReg) (v : BitVec 32) : (s.setCr c v).gdtr = s.gdtr := rfl
@[simp] theorem State.setCr_idtr (c : CReg) (v : BitVec 32) : (s.setCr c v).idtr = s.idtr := rfl
@[simp] theorem State.setCr_mode (c : CReg) (v : BitVec 32) : (s.setCr c v).mode = s.mode := rfl
@[simp] theorem State.setCr_latch (c : CReg) (v : BitVec 32) : (s.setCr c v).latch = s.latch := rfl
@[simp] theorem State.setCr_halted (c : CReg) (v : BitVec 32) : (s.setCr c v).halted = s.halted := rfl
@[simp] theorem State.setCr_intDepth (c : CReg) (v : BitVec 32) : (s.setCr c v).intDepth = s.intDepth := rfl
@[simp] theorem State.setCr_cyc (c : CReg) (v : BitVec 32) : (s.setCr c v).cyc = s.cyc := rfl
@[simp] theorem State.setCr_mem (c : CReg) (v : BitVec 32) : (s.setCr c v).mem = s.mem := rfl
@[simp] theorem State.setCr_ioLog (c : CReg) (v : BitVec 32) : (s.setCr c v).ioLog = s.ioLog := rfl
@[simp] theorem State.setCr_params (c : CReg) (v : BitVec 32) : (s.setCr c v).params = s.params := rfl
@[simp] theorem State.setCr_draws (c : CReg) (v : BitVec 32) : (s.setCr c v).draws = s.draws := rfl

@[simp] theorem State.setGdtr_regs (v : TableReg) : (s.setGdtr v).regs = s.regs := rfl
@[simp] theorem State.setGdtr_eip (v : TableReg) : (s.setGdtr v).eip = s.eip := rfl
@[simp] theorem State.setGdtr_flags (v : TableReg) : (s.setGdtr v).flags = s.flags := rfl
@[simp] theorem State.setGdtr_segs (v : TableReg) : (s.setGdtr v).segs = s.segs := rfl
@[simp] theorem State.setGdtr_cr (v : TableReg) : (s.setGdtr v).cr = s.cr := rfl
@[simp] theorem State.setGdtr_gdtr (v : TableReg) : (s.setGdtr v).gdtr = v := rfl
@[simp] theorem State.setGdtr_idtr (v : TableReg) : (s.setGdtr v).idtr = s.idtr := rfl
@[simp] theorem State.setGdtr_mode (v : TableReg) : (s.setGdtr v).mode = s.mode := rfl
@[simp] theorem State.setGdtr_latch (v : TableReg) : (s.setGdtr v).latch = s.latch := rfl
@[simp] theorem State.setGdtr_halted (v : TableReg) : (s.setGdtr v).halted = s.halted := rfl
@[simp] theorem State.setGdtr_intDepth (v : TableReg) : (s.setGdtr v).intDepth = s.intDepth := rfl
@[simp] theorem State.setGdtr_cyc (v : TableReg) : (s.setGdtr v).cyc = s.cyc := rfl
@[simp] theorem State.setGdtr_mem (v : TableReg) : (s.setGdtr v).mem = s.mem := rfl
@[simp] theorem State.setGdtr_ioLog (v : TableReg) : (s.setGdtr v).ioLog = s.ioLog := rfl
@[simp] theorem State.setGdtr_params (v : TableReg) : (s.setGdtr v).params = s.params := rfl
@[simp] theorem State.setGdtr_draws (v : TableReg) : (s.setGdtr v).draws = s.draws := rfl

@[simp] theorem State.setIdtr_regs (v : TableReg) : (s.setIdtr v).regs = s.regs := rfl
@[simp] theorem State.setIdtr_eip (v : TableReg) : (s.setIdtr v).eip = s.eip := rfl
@[simp] theorem State.setIdtr_flags (v : TableReg) : (s.setIdtr v).flags = s.flags := rfl
@[simp] theorem State.setIdtr_segs (v : TableReg) : (s.setIdtr v).segs = s.segs := rfl
@[simp] theorem State.setIdtr_cr (v : TableReg) : (s.setIdtr v).cr = s.cr := rfl
@[simp] theorem State.setIdtr_gdtr (v : TableReg) : (s.setIdtr v).gdtr = s.gdtr := rfl
@[simp] theorem State.setIdtr_idtr (v : TableReg) : (s.setIdtr v).idtr = v := rfl
@[simp] theorem State.setIdtr_mode (v : TableReg) : (s.setIdtr v).mode = s.mode := rfl
@[simp] theorem State.setIdtr_latch (v : TableReg) : (s.setIdtr v).latch = s.latch := rfl
@[simp] theorem State.setIdtr_halted (v : TableReg) : (s.setIdtr v).halted = s.halted := rfl
@[simp] theorem State.setIdtr_intDepth (v : TableReg) : (s.setIdtr v).intDepth = s.intDepth := rfl
@[simp] theorem State.setIdtr_cyc (v : TableReg) : (s.setIdtr v).cyc = s.cyc := rfl
@[simp] theorem State.setIdtr_mem (v : TableReg) : (s.setIdtr v).mem = s.mem := rfl
@[simp] theorem State.setIdtr_ioLog (v : TableReg) : (s.setIdtr v).ioLog = s.ioLog := rfl
@[simp] theorem State.setIdtr_params (v : TableReg) : (s.setIdtr v).params = s.params := rfl
@[simp] theorem State.setIdtr_draws (v : TableReg) : (s.setIdtr v).draws = s.draws := rfl

@[simp] theorem State.setMode_regs (v : Mode) : (s.setMode v).regs = s.regs := rfl
@[simp] theorem State.setMode_eip (v : Mode) : (s.setMode v).eip = s.eip := rfl
@[simp] theorem State.setMode_flags (v : Mode) : (s.setMode v).flags = s.flags := rfl
@[simp] theorem State.setMode_segs (v : Mode) : (s.setMode v).segs = s.segs := rfl
@[simp] theorem State.setMode_cr (v : Mode) : (s.setMode v).cr = s.cr := rfl
@[simp] theorem State.setMode_gdtr (v : Mode) : (s.setMode v).gdtr = s.gdtr := rfl
@[simp] theorem State.setMode_idtr (v : Mode) : (s.setMode v).idtr = s.idtr := rfl
@[simp] theorem State.setMode_mode (v : Mode) : (s.setMode v).mode = v := rfl
@[simp] theorem State.setMode_latch (v : Mode) : (s.setMode v).latch = s.latch := rfl
@[simp] theorem State.setMode_halted (v : Mode) : (s.setMode v).halted = s.halted := rfl
@[simp] theorem State.setMode_intDepth (v : Mode) : (s.setMode v).intDepth = s.intDepth := rfl
@[simp] theorem State.setMode_cyc (v : Mode) : (s.setMode v).cyc = s.cyc := rfl
@[simp] theorem State.setMode_mem (v : Mode) : (s.setMode v).mem = s.mem := rfl
@[simp] theorem State.setMode_ioLog (v : Mode) : (s.setMode v).ioLog = s.ioLog := rfl
@[simp] theorem State.setMode_params (v : Mode) : (s.setMode v).params = s.params := rfl
@[simp] theorem State.setMode_draws (v : Mode) : (s.setMode v).draws = s.draws := rfl

@[simp] theorem State.setLatch_regs (v : Latch) : (s.setLatch v).regs = s.regs := rfl
@[simp] theorem State.setLatch_eip (v : Latch) : (s.setLatch v).eip = s.eip := rfl
@[simp] theorem State.setLatch_flags (v : Latch) : (s.setLatch v).flags = s.flags := rfl
@[simp] theorem State.setLatch_segs (v : Latch) : (s.setLatch v).segs = s.segs := rfl
@[simp] theorem State.setLatch_cr (v : Latch) : (s.setLatch v).cr = s.cr := rfl
@[simp] theorem State.setLatch_gdtr (v : Latch) : (s.setLatch v).gdtr = s.gdtr := rfl
@[simp] theorem State.setLatch_idtr (v : Latch) : (s.setLatch v).idtr = s.idtr := rfl
@[simp] theorem State.setLatch_mode (v : Latch) : (s.setLatch v).mode = s.mode := rfl
@[simp] theorem State.setLatch_latch (v : Latch) : (s.setLatch v).latch = v := rfl
@[simp] theorem State.setLatch_halted (v : Latch) : (s.setLatch v).halted = s.halted := rfl
@[simp] theorem State.setLatch_intDepth (v : Latch) : (s.setLatch v).intDepth = s.intDepth := rfl
@[simp] theorem State.setLatch_cyc (v : Latch) : (s.setLatch v).cyc = s.cyc := rfl
@[simp] theorem State.setLatch_mem (v : Latch) : (s.setLatch v).mem = s.mem := rfl
@[simp] theorem State.setLatch_ioLog (v : Latch) : (s.setLatch v).ioLog = s.ioLog := rfl
@[simp] theorem State.setLatch_params (v : Latch) : (s.setLatch v).params = s.params := rfl
@[simp] theorem State.setLatch_draws (v : Latch) : (s.setLatch v).draws = s.draws := rfl

@[simp] theorem State.setHalted_regs (v : Bool) : (s.setHalted v).regs = s.regs := rfl
@[simp] theorem State.setHalted_eip (v : Bool) : (s.setHalted v).eip = s.eip := rfl
@[simp] theorem State.setHalted_flags (v : Bool) : (s.setHalted v).flags = s.flags := rfl
@[simp] theorem State.setHalted_segs (v : Bool) : (s.setHalted v).segs = s.segs := rfl
@[simp] theorem State.setHalted_cr (v : Bool) : (s.setHalted v).cr = s.cr := rfl
@[simp] theorem State.setHalted_gdtr (v : Bool) : (s.setHalted v).gdtr = s.gdtr := rfl
@[simp] theorem State.setHalted_idtr (v : Bool) : (s.setHalted v).idtr = s.idtr := rfl
@[simp] theorem State.setHalted_mode (v : Bool) : (s.setHalted v).mode = s.mode := rfl
@[simp] theorem State.setHalted_latch (v : Bool) : (s.setHalted v).latch = s.latch := rfl
@[simp] theorem State.setHalted_halted (v : Bool) : (s.setHalted v).halted = v := rfl
@[simp] theorem State.setHalted_intDepth (v : Bool) : (s.setHalted v).intDepth = s.intDepth := rfl
@[simp] theorem State.setHalted_cyc (v : Bool) : (s.setHalted v).cyc = s.cyc := rfl
@[simp] theorem State.setHalted_mem (v : Bool) : (s.setHalted v).mem = s.mem := rfl
@[simp] theorem State.setHalted_ioLog (v : Bool) : (s.setHalted v).ioLog = s.ioLog := rfl
@[simp] theorem State.setHalted_params (v : Bool) : (s.setHalted v).params = s.params := rfl
@[simp] theorem State.setHalted_draws (v : Bool) : (s.setHalted v).draws = s.draws := rfl

@[simp] theorem State.setIntDepth_regs (v : Nat) : (s.setIntDepth v).regs = s.regs := rfl
@[simp] theorem State.setIntDepth_eip (v : Nat) : (s.setIntDepth v).eip = s.eip := rfl
@[simp] theorem State.setIntDepth_flags (v : Nat) : (s.setIntDepth v).flags = s.flags := rfl
@[simp] theorem State.setIntDepth_segs (v : Nat) : (s.setIntDepth v).segs = s.segs := rfl
@[simp] theorem State.setIntDepth_cr (v : Nat) : (s.setIntDepth v).cr = s.cr := rfl
@[simp] theorem State.setIntDepth_gdtr (v : Nat) : (s.setIntDepth v).gdtr = s.gdtr := rfl
@[simp] theorem State.setIntDepth_idtr (v : Nat) : (s.setIntDepth v).idtr = s.idtr := rfl
@[simp] theorem State.setIntDepth_mode (v : Nat) : (s.setIntDepth v).mode = s.mode := rfl
@[simp] theorem State.setIntDepth_latch (v : Nat) : (s.setIntDepth v).latch = s.latch := rfl
@[simp] theorem State.setIntDepth_halted (v : Nat) : (s.setIntDepth v).halted = s.halted := rfl
@[simp] theorem State.setIntDepth_intDepth (v : Nat) : (s.setIntDepth v).intDepth = v := rfl
@[simp] theorem State.setIntDepth_cyc (v : Nat) : (s.setIntDepth v).cyc = s.cyc := rfl
@[simp] theorem State.setIntDepth_mem (v : Nat) : (s.setIntDepth v).mem = s.mem := rfl
@[simp] theorem State.setIntDepth_ioLog (v : Nat) : (s.setIntDepth v).ioLog = s.ioLog := rfl
@[simp] theorem State.setIntDepth_params (v : Nat) : (s.setIntDepth v).params = s.params := rfl
@[simp] theorem State.setIntDepth_draws (v : Nat) : (s.setIntDepth v).draws = s.draws := rfl

@[simp] theorem State.setCyc_regs (v : Cyc) : (s.setCyc v).regs = s.regs := rfl
@[simp] theorem State.setCyc_eip (v : Cyc) : (s.setCyc v).eip = s.eip := rfl
@[simp] theorem State.setCyc_flags (v : Cyc) : (s.setCyc v).flags = s.flags := rfl
@[simp] theorem State.setCyc_segs (v : Cyc) : (s.setCyc v).segs = s.segs := rfl
@[simp] theorem State.setCyc_cr (v : Cyc) : (s.setCyc v).cr = s.cr := rfl
@[simp] theorem State.setCyc_gdtr (v : Cyc) : (s.setCyc v).gdtr = s.gdtr := rfl
@[simp] theorem State.setCyc_idtr (v : Cyc) : (s.setCyc v).idtr = s.idtr := rfl
@[simp] theorem State.setCyc_mode (v : Cyc) : (s.setCyc v).mode = s.mode := rfl
@[simp] theorem State.setCyc_latch (v : Cyc) : (s.setCyc v).latch = s.latch := rfl
@[simp] theorem State.setCyc_halted (v : Cyc) : (s.setCyc v).halted = s.halted := rfl
@[simp] theorem State.setCyc_intDepth (v : Cyc) : (s.setCyc v).intDepth = s.intDepth := rfl
@[simp] theorem State.setCyc_cyc (v : Cyc) : (s.setCyc v).cyc = v := rfl
@[simp] theorem State.setCyc_mem (v : Cyc) : (s.setCyc v).mem = s.mem := rfl
@[simp] theorem State.setCyc_ioLog (v : Cyc) : (s.setCyc v).ioLog = s.ioLog := rfl
@[simp] theorem State.setCyc_params (v : Cyc) : (s.setCyc v).params = s.params := rfl
@[simp] theorem State.setCyc_draws (v : Cyc) : (s.setCyc v).draws = s.draws := rfl

@[simp] theorem State.setMem_regs (v : Memory) : (s.setMem v).regs = s.regs := rfl
@[simp] theorem State.setMem_eip (v : Memory) : (s.setMem v).eip = s.eip := rfl
@[simp] theorem State.setMem_flags (v : Memory) : (s.setMem v).flags = s.flags := rfl
@[simp] theorem State.setMem_segs (v : Memory) : (s.setMem v).segs = s.segs := rfl
@[simp] theorem State.setMem_cr (v : Memory) : (s.setMem v).cr = s.cr := rfl
@[simp] theorem State.setMem_gdtr (v : Memory) : (s.setMem v).gdtr = s.gdtr := rfl
@[simp] theorem State.setMem_idtr (v : Memory) : (s.setMem v).idtr = s.idtr := rfl
@[simp] theorem State.setMem_mode (v : Memory) : (s.setMem v).mode = s.mode := rfl
@[simp] theorem State.setMem_latch (v : Memory) : (s.setMem v).latch = s.latch := rfl
@[simp] theorem State.setMem_halted (v : Memory) : (s.setMem v).halted = s.halted := rfl
@[simp] theorem State.setMem_intDepth (v : Memory) : (s.setMem v).intDepth = s.intDepth := rfl
@[simp] theorem State.setMem_cyc (v : Memory) : (s.setMem v).cyc = s.cyc := rfl
@[simp] theorem State.setMem_mem (v : Memory) : (s.setMem v).mem = v := rfl
@[simp] theorem State.setMem_ioLog (v : Memory) : (s.setMem v).ioLog = s.ioLog := rfl
@[simp] theorem State.setMem_params (v : Memory) : (s.setMem v).params = s.params := rfl
@[simp] theorem State.setMem_draws (v : Memory) : (s.setMem v).draws = s.draws := rfl

@[simp] theorem State.logIo_regs (e : IoEvent) : (s.logIo e).regs = s.regs := rfl
@[simp] theorem State.logIo_eip (e : IoEvent) : (s.logIo e).eip = s.eip := rfl
@[simp] theorem State.logIo_flags (e : IoEvent) : (s.logIo e).flags = s.flags := rfl
@[simp] theorem State.logIo_segs (e : IoEvent) : (s.logIo e).segs = s.segs := rfl
@[simp] theorem State.logIo_cr (e : IoEvent) : (s.logIo e).cr = s.cr := rfl
@[simp] theorem State.logIo_gdtr (e : IoEvent) : (s.logIo e).gdtr = s.gdtr := rfl
@[simp] theorem State.logIo_idtr (e : IoEvent) : (s.logIo e).idtr = s.idtr := rfl
@[simp] theorem State.logIo_mode (e : IoEvent) : (s.logIo e).mode = s.mode := rfl
@[simp] theorem State.logIo_latch (e : IoEvent) : (s.logIo e).latch = s.latch := rfl
@[simp] theorem State.logIo_halted (e : IoEvent) : (s.logIo e).halted = s.halted := rfl
@[simp] theorem State.logIo_intDepth (e : IoEvent) : (s.logIo e).intDepth = s.intDepth := rfl
@[simp] theorem State.logIo_cyc (e : IoEvent) : (s.logIo e).cyc = s.cyc := rfl
@[simp] theorem State.logIo_mem (e : IoEvent) : (s.logIo e).mem = s.mem := rfl
@[simp] theorem State.logIo_ioLog (e : IoEvent) : (s.logIo e).ioLog = e :: s.ioLog := rfl
@[simp] theorem State.logIo_params (e : IoEvent) : (s.logIo e).params = s.params := rfl
@[simp] theorem State.logIo_draws (e : IoEvent) : (s.logIo e).draws = s.draws := rfl

@[simp] theorem State.drawn_regs : (s.drawn).regs = s.regs := rfl
@[simp] theorem State.drawn_eip : (s.drawn).eip = s.eip := rfl
@[simp] theorem State.drawn_flags : (s.drawn).flags = s.flags := rfl
@[simp] theorem State.drawn_segs : (s.drawn).segs = s.segs := rfl
@[simp] theorem State.drawn_cr : (s.drawn).cr = s.cr := rfl
@[simp] theorem State.drawn_gdtr : (s.drawn).gdtr = s.gdtr := rfl
@[simp] theorem State.drawn_idtr : (s.drawn).idtr = s.idtr := rfl
@[simp] theorem State.drawn_mode : (s.drawn).mode = s.mode := rfl
@[simp] theorem State.drawn_latch : (s.drawn).latch = s.latch := rfl
@[simp] theorem State.drawn_halted : (s.drawn).halted = s.halted := rfl
@[simp] theorem State.drawn_intDepth : (s.drawn).intDepth = s.intDepth := rfl
@[simp] theorem State.drawn_cyc : (s.drawn).cyc = s.cyc := rfl
@[simp] theorem State.drawn_mem : (s.drawn).mem = s.mem := rfl
@[simp] theorem State.drawn_ioLog : (s.drawn).ioLog = s.ioLog := rfl
@[simp] theorem State.drawn_params : (s.drawn).params = s.params := rfl
@[simp] theorem State.drawn_draws : (s.drawn).draws = s.draws + 1 := rfl

@[simp] theorem State.setReg_regs (w : Width) (i : Reg) (v : BitVec w.bits) : (s.setReg w i v).regs = s.regs.write w i v := rfl
@[simp] theorem State.setReg_eip (w : Width) (i : Reg) (v : BitVec w.bits) : (s.setReg w i v).eip = s.eip := rfl
@[simp] theorem State.setReg_flags (w : Width) (i : Reg) (v : BitVec w.bits) : (s.setReg w i v).flags = s.flags := rfl
@[simp] theorem State.setReg_segs (w : Width) (i : Reg) (v : BitVec w.bits) : (s.setReg w i v).segs = s.segs := rfl
@[simp] theorem State.setReg_cr (w : Width) (i : Reg) (v : BitVec w.bits) : (s.setReg w i v).cr = s.cr := rfl
@[simp] theorem State.setReg_gdtr (w : Width) (i : Reg) (v : BitVec w.bits) : (s.setReg w i v).gdtr = s.gdtr := rfl
@[simp] theorem State.setReg_idtr (w : Width) (i : Reg) (v : BitVec w.bits) : (s.setReg w i v).idtr = s.idtr := rfl
@[simp] theorem State.setReg_mode (w : Width) (i : Reg) (v : BitVec w.bits) : (s.setReg w i v).mode = s.mode := rfl
@[simp] theorem State.setReg_latch (w : Width) (i : Reg) (v : BitVec w.bits) : (s.setReg w i v).latch = s.latch := rfl
@[simp] theorem State.setReg_halted (w : Width) (i : Reg) (v : BitVec w.bits) : (s.setReg w i v).halted = s.halted := rfl
@[simp] theorem State.setReg_intDepth (w : Width) (i : Reg) (v : BitVec w.bits) : (s.setReg w i v).intDepth = s.intDepth := rfl
@[simp] theorem State.setReg_cyc (w : Width) (i : Reg) (v : BitVec w.bits) : (s.setReg w i v).cyc = s.cyc := rfl
@[simp] theorem State.setReg_mem (w : Width) (i : Reg) (v : BitVec w.bits) : (s.setReg w i v).mem = s.mem := rfl
@[simp] theorem State.setReg_ioLog (w : Width) (i : Reg) (v : BitVec w.bits) : (s.setReg w i v).ioLog = s.ioLog := rfl
@[simp] theorem State.setReg_params (w : Width) (i : Reg) (v : BitVec w.bits) : (s.setReg w i v).params = s.params := rfl
@[simp] theorem State.setReg_draws (w : Width) (i : Reg) (v : BitVec w.bits) : (s.setReg w i v).draws = s.draws := rfl

@[simp] theorem State.setByteAt_regs (a : BitVec 32) (v : Byte) : (s.setByteAt a v).regs = s.regs := rfl
@[simp] theorem State.setByteAt_eip (a : BitVec 32) (v : Byte) : (s.setByteAt a v).eip = s.eip := rfl
@[simp] theorem State.setByteAt_flags (a : BitVec 32) (v : Byte) : (s.setByteAt a v).flags = s.flags := rfl
@[simp] theorem State.setByteAt_segs (a : BitVec 32) (v : Byte) : (s.setByteAt a v).segs = s.segs := rfl
@[simp] theorem State.setByteAt_cr (a : BitVec 32) (v : Byte) : (s.setByteAt a v).cr = s.cr := rfl
@[simp] theorem State.setByteAt_gdtr (a : BitVec 32) (v : Byte) : (s.setByteAt a v).gdtr = s.gdtr := rfl
@[simp] theorem State.setByteAt_idtr (a : BitVec 32) (v : Byte) : (s.setByteAt a v).idtr = s.idtr := rfl
@[simp] theorem State.setByteAt_mode (a : BitVec 32) (v : Byte) : (s.setByteAt a v).mode = s.mode := rfl
@[simp] theorem State.setByteAt_latch (a : BitVec 32) (v : Byte) : (s.setByteAt a v).latch = s.latch := rfl
@[simp] theorem State.setByteAt_halted (a : BitVec 32) (v : Byte) : (s.setByteAt a v).halted = s.halted := rfl
@[simp] theorem State.setByteAt_intDepth (a : BitVec 32) (v : Byte) : (s.setByteAt a v).intDepth = s.intDepth := rfl
@[simp] theorem State.setByteAt_cyc (a : BitVec 32) (v : Byte) : (s.setByteAt a v).cyc = s.cyc := rfl
@[simp] theorem State.setByteAt_mem (a : BitVec 32) (v : Byte) : (s.setByteAt a v).mem = s.mem.set a.toNat v := rfl
@[simp] theorem State.setByteAt_ioLog (a : BitVec 32) (v : Byte) : (s.setByteAt a v).ioLog = s.ioLog := rfl
@[simp] theorem State.setByteAt_params (a : BitVec 32) (v : Byte) : (s.setByteAt a v).params = s.params := rfl
@[simp] theorem State.setByteAt_draws (a : BitVec 32) (v : Byte) : (s.setByteAt a v).draws = s.draws := rfl

@[simp] theorem State.advance_regs : (s.advance).regs = s.regs := rfl
@[simp] theorem State.advance_eip : (s.advance).eip = s.next := rfl
@[simp] theorem State.advance_flags : (s.advance).flags = s.flags := rfl
@[simp] theorem State.advance_segs : (s.advance).segs = s.segs := rfl
@[simp] theorem State.advance_cr : (s.advance).cr = s.cr := rfl
@[simp] theorem State.advance_gdtr : (s.advance).gdtr = s.gdtr := rfl
@[simp] theorem State.advance_idtr : (s.advance).idtr = s.idtr := rfl
@[simp] theorem State.advance_mode : (s.advance).mode = s.mode := rfl
@[simp] theorem State.advance_latch : (s.advance).latch = s.latch := rfl
@[simp] theorem State.advance_halted : (s.advance).halted = s.halted := rfl
@[simp] theorem State.advance_intDepth : (s.advance).intDepth = s.intDepth := rfl
@[simp] theorem State.advance_cyc : (s.advance).cyc = s.cyc := rfl
@[simp] theorem State.advance_mem : (s.advance).mem = s.mem := rfl
@[simp] theorem State.advance_ioLog : (s.advance).ioLog = s.ioLog := rfl
@[simp] theorem State.advance_params : (s.advance).params = s.params := rfl
@[simp] theorem State.advance_draws : (s.advance).draws = s.draws := rfl

@[simp] theorem State.sampleMode_regs : (s.sampleMode).regs = s.regs := rfl
@[simp] theorem State.sampleMode_eip : (s.sampleMode).eip = s.eip := rfl
@[simp] theorem State.sampleMode_flags : (s.sampleMode).flags = s.flags := rfl
@[simp] theorem State.sampleMode_segs : (s.sampleMode).segs = s.segs := rfl
@[simp] theorem State.sampleMode_cr : (s.sampleMode).cr = s.cr := rfl
@[simp] theorem State.sampleMode_gdtr : (s.sampleMode).gdtr = s.gdtr := rfl
@[simp] theorem State.sampleMode_idtr : (s.sampleMode).idtr = s.idtr := rfl
@[simp] theorem State.sampleMode_mode : (s.sampleMode).mode = if s.cr.cr0.getLsbD 0 then .prot else .real := rfl
@[simp] theorem State.sampleMode_latch : (s.sampleMode).latch = s.latch := rfl
@[simp] theorem State.sampleMode_halted : (s.sampleMode).halted = s.halted := rfl
@[simp] theorem State.sampleMode_intDepth : (s.sampleMode).intDepth = s.intDepth := rfl
@[simp] theorem State.sampleMode_cyc : (s.sampleMode).cyc = s.cyc := rfl
@[simp] theorem State.sampleMode_mem : (s.sampleMode).mem = s.mem := rfl
@[simp] theorem State.sampleMode_ioLog : (s.sampleMode).ioLog = s.ioLog := rfl
@[simp] theorem State.sampleMode_params : (s.sampleMode).params = s.params := rfl
@[simp] theorem State.sampleMode_draws : (s.sampleMode).draws = s.draws := rfl

@[simp] theorem State.endCycle_regs : (s.endCycle).regs = s.regs := rfl
@[simp] theorem State.endCycle_eip : (s.endCycle).eip = s.eip := rfl
@[simp] theorem State.endCycle_flags : (s.endCycle).flags = s.flags := rfl
@[simp] theorem State.endCycle_segs : (s.endCycle).segs = s.segs := rfl
@[simp] theorem State.endCycle_cr : (s.endCycle).cr = s.cr := rfl
@[simp] theorem State.endCycle_gdtr : (s.endCycle).gdtr = s.gdtr := rfl
@[simp] theorem State.endCycle_idtr : (s.endCycle).idtr = s.idtr := rfl
@[simp] theorem State.endCycle_mode : (s.endCycle).mode = s.mode := rfl
@[simp] theorem State.endCycle_latch : (s.endCycle).latch = s.latch := rfl
@[simp] theorem State.endCycle_halted : (s.endCycle).halted = s.halted := rfl
@[simp] theorem State.endCycle_intDepth : (s.endCycle).intDepth = s.intDepth := rfl
@[simp] theorem State.endCycle_cyc : (s.endCycle).cyc = .empty := rfl
@[simp] theorem State.endCycle_mem : (s.endCycle).mem = s.mem := rfl
@[simp] theorem State.endCycle_ioLog : (s.endCycle).ioLog = s.ioLog := rfl
@[simp] theorem State.endCycle_params : (s.endCycle).params = s.params := rfl
@[simp] theorem State.endCycle_draws : (s.endCycle).draws = s.draws := rfl

@[simp] theorem State.setPfx_regs (p : Prefixes) : (s.setPfx p).regs = s.regs := rfl
@[simp] theorem State.setPfx_eip (p : Prefixes) : (s.setPfx p).eip = s.eip := rfl
@[simp] theorem State.setPfx_flags (p : Prefixes) : (s.setPfx p).flags = s.flags := rfl
@[simp] theorem State.setPfx_segs (p : Prefixes) : (s.setPfx p).segs = s.segs := rfl
@[simp] theorem State.setPfx_cr (p : Prefixes) : (s.setPfx p).cr = s.cr := rfl
@[simp] theorem State.setPfx_gdtr (p : Prefixes) : (s.setPfx p).gdtr = s.gdtr := rfl
@[simp] theorem State.setPfx_idtr (p : Prefixes) : (s.setPfx p).idtr = s.idtr := rfl
@[simp] theorem State.setPfx_mode (p : Prefixes) : (s.setPfx p).mode = s.mode := rfl
@[simp] theorem State.setPfx_latch (p : Prefixes) : (s.setPfx p).latch = s.latch := rfl
@[simp] theorem State.setPfx_halted (p : Prefixes) : (s.setPfx p).halted = s.halted := rfl
@[simp] theorem State.setPfx_intDepth (p : Prefixes) : (s.setPfx p).intDepth = s.intDepth := rfl
@[simp] theorem State.setPfx_cyc (p : Prefixes) : (s.setPfx p).cyc = { s.cyc with pfx := p } := rfl
@[simp] theorem State.setPfx_mem (p : Prefixes) : (s.setPfx p).mem = s.mem := rfl
@[simp] theorem State.setPfx_ioLog (p : Prefixes) : (s.setPfx p).ioLog = s.ioLog := rfl
@[simp] theorem State.setPfx_params (p : Prefixes) : (s.setPfx p).params = s.params := rfl
@[simp] theorem State.setPfx_draws (p : Prefixes) : (s.setPfx p).draws = s.draws := rfl

@[simp] theorem State.readUnit_regs (bs : List Byte) : (s.readUnit bs).regs = s.regs := rfl
@[simp] theorem State.readUnit_eip (bs : List Byte) : (s.readUnit bs).eip = s.eip := rfl
@[simp] theorem State.readUnit_flags (bs : List Byte) : (s.readUnit bs).flags = s.flags := rfl
@[simp] theorem State.readUnit_segs (bs : List Byte) : (s.readUnit bs).segs = s.segs := rfl
@[simp] theorem State.readUnit_cr (bs : List Byte) : (s.readUnit bs).cr = s.cr := rfl
@[simp] theorem State.readUnit_gdtr (bs : List Byte) : (s.readUnit bs).gdtr = s.gdtr := rfl
@[simp] theorem State.readUnit_idtr (bs : List Byte) : (s.readUnit bs).idtr = s.idtr := rfl
@[simp] theorem State.readUnit_mode (bs : List Byte) : (s.readUnit bs).mode = s.mode := rfl
@[simp] theorem State.readUnit_latch (bs : List Byte) : (s.readUnit bs).latch = s.latch := rfl
@[simp] theorem State.readUnit_halted (bs : List Byte) : (s.readUnit bs).halted = s.halted := rfl
@[simp] theorem State.readUnit_intDepth (bs : List Byte) : (s.readUnit bs).intDepth = s.intDepth := rfl
@[simp] theorem State.readUnit_cyc (bs : List Byte) : (s.readUnit bs).cyc = { s.cyc with bytes := s.cyc.bytes ++ bs } := rfl
@[simp] theorem State.readUnit_mem (bs : List Byte) : (s.readUnit bs).mem = s.mem := rfl
@[simp] theorem State.readUnit_ioLog (bs : List Byte) : (s.readUnit bs).ioLog = s.ioLog := rfl
@[simp] theorem State.readUnit_params (bs : List Byte) : (s.readUnit bs).params = s.params := rfl
@[simp] theorem State.readUnit_draws (bs : List Byte) : (s.readUnit bs).draws = s.draws := rfl

@[simp] theorem State.startCycle_regs : (s.startCycle).regs = s.regs := rfl
@[simp] theorem State.startCycle_eip : (s.startCycle).eip = s.eip := rfl
@[simp] theorem State.startCycle_flags : (s.startCycle).flags = s.flags := rfl
@[simp] theorem State.startCycle_segs : (s.startCycle).segs = s.segs := rfl
@[simp] theorem State.startCycle_cr : (s.startCycle).cr = s.cr := rfl
@[simp] theorem State.startCycle_gdtr : (s.startCycle).gdtr = s.gdtr := rfl
@[simp] theorem State.startCycle_idtr : (s.startCycle).idtr = s.idtr := rfl
@[simp] theorem State.startCycle_mode : (s.startCycle).mode = s.mode := rfl
@[simp] theorem State.startCycle_latch : (s.startCycle).latch = s.latch := rfl
@[simp] theorem State.startCycle_halted : (s.startCycle).halted = s.halted := rfl
@[simp] theorem State.startCycle_intDepth : (s.startCycle).intDepth = s.intDepth := rfl
@[simp] theorem State.startCycle_cyc : (s.startCycle).cyc = ⟨s.codeSize, .empty, []⟩ := rfl
@[simp] theorem State.startCycle_mem : (s.startCycle).mem = s.mem := rfl
@[simp] theorem State.startCycle_ioLog : (s.startCycle).ioLog = s.ioLog := rfl
@[simp] theorem State.startCycle_params : (s.startCycle).params = s.params := rfl
@[simp] theorem State.startCycle_draws : (s.startCycle).draws = s.draws := rfl

section
variable (ports : List (BitVec 16)) (d : Nat)
@[simp] theorem State.registerPorts_regs : (s.registerPorts ports d).regs = s.regs := rfl
@[simp] theorem State.registerPorts_eip : (s.registerPorts ports d).eip = s.eip := rfl
@[simp] theorem State.registerPorts_flags : (s.registerPorts ports d).flags = s.flags := rfl
@[simp] theorem State.registerPorts_segs : (s.registerPorts ports d).segs = s.segs := rfl
@[simp] theorem State.registerPorts_cr : (s.registerPorts ports d).cr = s.cr := rfl
@[simp] theorem State.registerPorts_gdtr : (s.registerPorts ports d).gdtr = s.gdtr := rfl
@[simp] theorem State.registerPorts_idtr : (s.registerPorts ports d).idtr = s.idtr := rfl
@[simp] theorem State.registerPorts_mode : (s.registerPorts ports d).mode = s.mode := rfl
@[simp] theorem State.registerPorts_latch : (s.registerPorts ports d).latch = s.latch := rfl
@[simp] theorem State.registerPorts_halted : (s.registerPorts ports d).halted = s.halted := rfl
@[simp] theorem State.registerPorts_intDepth : (s.registerPorts ports d).intDepth = s.intDepth := rfl
@[simp] theorem State.registerPorts_cyc : (s.registerPorts ports d).cyc = s.cyc := rfl
@[simp] theorem State.registerPorts_mem : (s.registerPorts ports d).mem = s.mem := rfl
@[simp] theorem State.registerPorts_ioLog : (s.registerPorts ports d).ioLog = s.ioLog := rfl
@[simp] theorem State.registerPorts_draws : (s.registerPorts ports d).draws = s.draws := rfl
@[simp] theorem State.registerPorts_params :
    (s.registerPorts ports d).params = { s.params with ioMap := ⟨ports, d⟩ :: s.params.ioMap } := rfl
end

end Sys2Proof.Machine
end

