-- ==== Sys2Proof/Laws/Memory.lean ====
section
/-! SUPPORT. Memory: a byte reads as what was last written there, every update keeps the canonical form, and a store touches
nothing but its own bytes. -/

namespace Sys2Proof.Machine

/-! ## Reading after writing -/

theorem Memory.get_erase (m : Memory) (k j : Nat) :
    (m.erase k).get j = if j = k then unlisted else m.get j := by
  induction m with
  | nil => simp [Memory.erase, Memory.get]
  | cons c m ih =>
    obtain ⟨a, v⟩ := c
    by_cases h : a = k
    · subst h
      by_cases hj : a = j <;> simp_all [Memory.erase, Memory.get, eq_comm]
    · by_cases hj : a = j
      · subst hj
        simp [Memory.erase, Memory.get, h]
      · simp [Memory.erase, Memory.get, h, hj, ih]

theorem Memory.get_insert (m : Memory) (k j : Nat) (x : Byte) :
    (m.insert k x).get j = if j = k then x else m.get j := by
  induction m with
  | nil => by_cases h : k = j <;> simp [Memory.insert, Memory.get, h, eq_comm]
  | cons c m ih =>
    obtain ⟨a, v⟩ := c
    by_cases hlt : a < k
    · have hne : a ≠ k := by omega
      by_cases hj : a = j
      · subst hj; simp [Memory.insert, Memory.get, hlt, hne]
      · simp [Memory.insert, Memory.get, hlt, hj, ih]
    · by_cases heq : a = k
      · subst heq
        by_cases hj : a = j
        · subst hj; simp [Memory.insert, Memory.get]
        · have : j ≠ a := fun h => hj h.symm
          simp [Memory.insert, Memory.get, hj, this]
      · by_cases hj : k = j
        · subst hj; simp [Memory.insert, Memory.get, hlt, heq]
        · have : j ≠ k := fun h => hj h.symm
          simp [Memory.insert, Memory.get, hlt, heq, hj, this]

/-- A byte reads as what was last written there. -/
theorem Memory.get_set (m : Memory) (k j : Nat) (x : Byte) :
    (m.set k x).get j = if j = k then x else m.get j := by
  unfold Memory.set
  split
  · next h => subst h; exact Memory.get_erase m k j
  · exact Memory.get_insert m k j x

/-! ## The canonical form -/

theorem Memory.above_erase {m : Memory} {b : Nat} (k : Nat) (h : m.above b = true) : (m.erase k).above b = true := by
  induction m with
  | nil => rfl
  | cons c m ih =>
    obtain ⟨a, v⟩ := c
    simp only [Memory.above, List.all_cons, Bool.and_eq_true] at h ih ⊢
    by_cases hk : a = k
    · simp only [Memory.erase, hk, if_true]; exact ih h.2
    · simp only [Memory.erase, hk, if_false, List.all_cons, Bool.and_eq_true]; exact ⟨h.1, ih h.2⟩

theorem Memory.above_insert {m : Memory} {b k : Nat} (x : Byte) (hb : b < k) (h : m.above b = true) :
    (m.insert k x).above b = true := by
  induction m with
  | nil => simp [Memory.insert, Memory.above, hb]
  | cons c m ih =>
    obtain ⟨a, v⟩ := c
    simp only [Memory.above, List.all_cons, Bool.and_eq_true] at h ih ⊢
    by_cases hlt : a < k
    · simp only [Memory.insert, hlt, if_true, List.all_cons, Bool.and_eq_true]; exact ⟨h.1, ih h.2⟩
    · by_cases heq : a = k
      · subst heq
        simp only [Memory.insert, Nat.lt_irrefl, if_false, if_true, List.all_cons, Bool.and_eq_true, decide_eq_true_eq]
        exact ⟨hb, h.2⟩
      · simp only [Memory.insert, hlt, heq, if_false, List.all_cons, Bool.and_eq_true, decide_eq_true_eq]
        exact ⟨hb, by simpa using h.1, h.2⟩

theorem Memory.above_trans {m : Memory} {a b : Nat} (hab : a ≤ b) (h : m.above b = true) : m.above a = true := by
  simp only [Memory.above, List.all_eq_true, decide_eq_true_eq] at h ⊢
  intro c hc
  exact Nat.lt_of_le_of_lt hab (h c hc)

theorem Memory.wf_erase {m : Memory} (k : Nat) (h : m.wf = true) : (m.erase k).wf = true := by
  induction m with
  | nil => rfl
  | cons c m ih =>
    obtain ⟨a, v⟩ := c
    simp only [Memory.wf, Bool.and_eq_true] at h
    by_cases hk : a = k
    · simp only [Memory.erase, hk, if_true]; exact ih h.2
    · simp only [Memory.erase, hk, if_false, Memory.wf, Bool.and_eq_true]
      exact ⟨⟨h.1.1, Memory.above_erase k h.1.2⟩, ih h.2⟩

theorem Memory.wf_insert {m : Memory} {k : Nat} {x : Byte} (hx : x ≠ unlisted) (h : m.wf = true) :
    (m.insert k x).wf = true := by
  induction m with
  | nil => simp [Memory.insert, Memory.wf, Memory.above, hx]
  | cons c m ih =>
    obtain ⟨a, v⟩ := c
    simp only [Memory.wf, Bool.and_eq_true] at h
    by_cases hlt : a < k
    · simp only [Memory.insert, hlt, if_true, Memory.wf, Bool.and_eq_true]
      exact ⟨⟨h.1.1, Memory.above_insert x hlt h.1.2⟩, ih h.2⟩
    · by_cases heq : a = k
      · subst heq
        simp only [Memory.insert, Nat.lt_irrefl, if_false, if_true, Memory.wf, Bool.and_eq_true, decide_eq_true_eq]
        exact ⟨⟨hx, h.1.2⟩, h.2⟩
      · have hka : k < a := by omega
        simp only [Memory.insert, hlt, heq, if_false, Memory.wf, Bool.and_eq_true, decide_eq_true_eq]
        refine ⟨⟨hx, ?_⟩, ⟨by simpa using h.1.1, h.1.2⟩, h.2⟩
        have hm := Memory.above_trans (Nat.le_of_lt hka) h.1.2
        simp only [Memory.above, List.all_cons, Bool.and_eq_true, decide_eq_true_eq] at hm ⊢
        exact ⟨hka, hm⟩

/-- A write keeps the canonical form. -/
theorem Memory.wf_set {m : Memory} (k : Nat) (x : Byte) (h : m.wf = true) : (m.set k x).wf = true := by
  unfold Memory.set
  split
  · exact Memory.wf_erase k h
  · next hx => exact Memory.wf_insert hx h

theorem Memory.mem_erase {m : Memory} {k : Nat} {c : Host.Cell} (h : c ∈ m.erase k) : c ∈ m := by
  induction m with
  | nil => simp [Memory.erase] at h
  | cons d m ih =>
    obtain ⟨a, v⟩ := d
    by_cases hk : a = k
    · simp only [Memory.erase, hk, if_true] at h; exact List.mem_cons_of_mem _ (ih h)
    · simp only [Memory.erase, hk, if_false, List.mem_cons] at h
      rcases h with h | h
      · exact h ▸ List.mem_cons_self
      · exact List.mem_cons_of_mem _ (ih h)

theorem Memory.mem_insert {m : Memory} {k : Nat} {x : Byte} {c : Host.Cell} (h : c ∈ m.insert k x) :
    c = (k, x) ∨ c ∈ m := by
  induction m with
  | nil => simpa [Memory.insert] using h
  | cons d m ih =>
    obtain ⟨a, v⟩ := d
    by_cases hlt : a < k
    · simp only [Memory.insert, hlt, if_true, List.mem_cons] at h
      rcases h with h | h
      · exact .inr (h ▸ List.mem_cons_self)
      · exact (ih h).imp id (List.mem_cons_of_mem _)
    · by_cases heq : a = k
      · subst heq
        simp only [Memory.insert, Nat.lt_irrefl, if_false, if_true, List.mem_cons] at h
        exact h.imp id (List.mem_cons_of_mem _)
      · simp only [Memory.insert, hlt, heq, if_false, List.mem_cons] at h
        rcases h with h | h | h
        · exact .inl h
        · exact .inr (h ▸ List.mem_cons_self)
        · exact .inr (List.mem_cons_of_mem _ h)

/-- Every listed address is below a bound. -/
theorem Memory.below_set {m : Memory} {n k : Nat} {x : Byte} (hk : k < n) (h : ∀ c ∈ m, c.1 < n) :
    ∀ c ∈ m.set k x, c.1 < n := by
  intro c hc
  unfold Memory.set at hc
  split at hc
  · exact h c (Memory.mem_erase hc)
  · rcases Memory.mem_insert hc with rfl | hc
    · exact hk
    · exact h c hc

/-! ## Bytes of the state -/

theorem State.byteAt_setByteAt (s : State) (a b : BitVec 32) (v : Byte) :
    (s.setByteAt a v).byteAt b = if b = a then v else s.byteAt b := by
  simp only [State.byteAt, State.setByteAt_mem, Memory.get_set, BitVec.toNat_inj]

/-- A store changes memory only. -/
theorem State.store_eq (s : State) (lin : BitVec 32) (w : Width) (v : BitVec w.bits) :
    s.store lin w v = s.setMem (s.store lin w v).mem := by
  cases w <;> rfl

section
variable (s : State) (lin : BitVec 32) (w : Width) (v : BitVec w.bits)
@[simp] theorem State.store_regs : (s.store lin w v).regs = s.regs := by cases w <;> rfl
@[simp] theorem State.store_eip : (s.store lin w v).eip = s.eip := by cases w <;> rfl
@[simp] theorem State.store_flags : (s.store lin w v).flags = s.flags := by cases w <;> rfl
@[simp] theorem State.store_segs : (s.store lin w v).segs = s.segs := by cases w <;> rfl
@[simp] theorem State.store_cr : (s.store lin w v).cr = s.cr := by cases w <;> rfl
@[simp] theorem State.store_gdtr : (s.store lin w v).gdtr = s.gdtr := by cases w <;> rfl
@[simp] theorem State.store_idtr : (s.store lin w v).idtr = s.idtr := by cases w <;> rfl
@[simp] theorem State.store_mode : (s.store lin w v).mode = s.mode := by cases w <;> rfl
@[simp] theorem State.store_latch : (s.store lin w v).latch = s.latch := by cases w <;> rfl
@[simp] theorem State.store_halted : (s.store lin w v).halted = s.halted := by cases w <;> rfl
@[simp] theorem State.store_intDepth : (s.store lin w v).intDepth = s.intDepth := by cases w <;> rfl
@[simp] theorem State.store_cyc : (s.store lin w v).cyc = s.cyc := by cases w <;> rfl
@[simp] theorem State.store_ioLog : (s.store lin w v).ioLog = s.ioLog := by cases w <;> rfl
@[simp] theorem State.store_params : (s.store lin w v).params = s.params := by cases w <;> rfl
@[simp] theorem State.store_draws : (s.store lin w v).draws = s.draws := by cases w <;> rfl
end

theorem add_one_add (lin : BitVec 32) (k : Nat) : lin + 1 + BitVec.ofNat 32 k = lin + BitVec.ofNat 32 (k + 1) := by
  rw [BitVec.add_assoc, Nat.add_comm k 1]
  exact congrArg (lin + ·) (BitVec.ofNat_add_ofNat 1 k)

/-- `badAddr` answers nothing exactly where every byte of the access is below P_MEM_SIZE (R121). -/
theorem State.badAddr_eq_none (s : State) (lin : BitVec 32) (n : Nat) :
    s.badAddr lin n = none ↔ ∀ k < n, (lin + BitVec.ofNat 32 k).toNat < s.params.memSize := by
  induction n generalizing lin with
  | zero => simp [State.badAddr]
  | succ n ih =>
    unfold State.badAddr
    split
    · next h =>
      simp only [reduceCtorEq, false_iff, not_forall]
      exact ⟨0, by omega, by simpa using h⟩
    · next h =>
      rw [ih]
      constructor
      · intro hk k hkn
        cases k with
        | zero => simpa using h
        | succ k =>
          have := hk k (by omega)
          rwa [add_one_add] at this
      · intro hk k hkn
        have := hk (k + 1) (by omega)
        rwa [← add_one_add] at this

/-- A read that succeeds answers the bytes there, all below P_MEM_SIZE. -/
theorem State.memRead_ok {s : State} {w : Width} {lin : BitVec 32} {v : BitVec w.bits} :
    s.memRead w lin = .ok v ↔ s.badAddr lin w.bytes = none ∧ v = s.load lin w := by
  unfold State.memRead
  split
  · next h => simp [h]
  · next h => simp [h, eq_comm]

/-- A write that succeeds is a store, all of it below P_MEM_SIZE. -/
theorem State.memWrite_ok {s t : State} {w : Width} {lin : BitVec 32} {v : BitVec w.bits} :
    s.memWrite w lin v = .ok t ↔ s.badAddr lin w.bytes = none ∧ t = s.store lin w v := by
  unfold State.memWrite
  split
  · next h => simp [h]
  · next h => simp [h, eq_comm]

/-- A store keeps the canonical form and the bound on addresses. -/
theorem State.store_wf {s : State} {lin : BitVec 32} {w : Width} (v : BitVec w.bits) (h : s.mem.wf = true) :
    (s.store lin w v).mem.wf = true := by
  cases w <;> simp only [State.store, State.setByteAt_mem] <;> (repeat apply Memory.wf_set) <;> exact h

theorem State.store_below {s : State} {lin : BitVec 32} {w : Width} (v : BitVec w.bits)
    (hb : s.badAddr lin w.bytes = none) (h : ∀ c ∈ s.mem, c.1 < s.params.memSize) :
    ∀ c ∈ (s.store lin w v).mem, c.1 < s.params.memSize := by
  rw [State.badAddr_eq_none] at hb
  cases w
  · have h0 := hb 0 (by decide)
    simp only [BitVec.add_zero] at h0
    exact Memory.below_set h0 h
  · have h0 := hb 0 (by decide)
    have h1 := hb 1 (by decide)
    simp only [BitVec.add_zero] at h0 h1
    exact Memory.below_set h1 (Memory.below_set h0 h)
  · have h0 := hb 0 (by decide)
    have h1 := hb 1 (by decide)
    have h2 := hb 2 (by decide)
    have h3 := hb 3 (by decide)
    simp only [BitVec.add_zero] at h0 h1 h2 h3
    exact Memory.below_set h3 (Memory.below_set h2 (Memory.below_set h1 (Memory.below_set h0 h)))

/-- A block write changes memory only (R743). -/
theorem State.hostBlockWrite_eq (s : State) (a : BitVec 32) (bs : List Byte) :
    s.hostBlockWrite a bs = s.setMem (s.hostBlockWrite a bs).mem := by
  induction bs generalizing s a with
  | nil => rfl
  | cons v bs ih => exact ih (s.setByteAt a v) (a + 1)

/-- A block write keeps the canonical form. -/
theorem State.hostBlockWrite_wf {s : State} (a : BitVec 32) (bs : List Byte) (h : s.mem.wf = true) :
    (s.hostBlockWrite a bs).mem.wf = true := by
  induction bs generalizing s a with
  | nil => exact h
  | cons v bs ih => exact ih (a + 1) (Memory.wf_set _ _ h)

/-- The memory right after reset is in canonical form. -/
theorem reset_mem_wf : State.reset.mem.wf = true := rfl

end Sys2Proof.Machine
end

