-- ==== Sys2Proof/Laws/Ops.lean ====
section
/-! SUPPORT. What each shared operation can do: when it answers a state, and which. Proofs cite these and do not unfold the
operations. -/

namespace Sys2Proof.Machine

/-! ## Taking computations apart -/

/-- A sequence succeeds exactly where both its parts do. -/
theorem bind_ok {α β : Type} {x : Except FaultKind α} {f : α → Except FaultKind β} {b : β} :
    (x >>= f) = .ok b ↔ ∃ a, x = .ok a ∧ f a = .ok b := by
  cases x with
  | error e => simp [bind, Except.bind]
  | ok a => simp [bind, Except.bind]

/-- An instruction completes exactly where its computation succeeds. -/
theorem finish_next {x : Except FaultKind State} {t : State} : finish x = .next t ↔ x = .ok t := by
  cases x <;> simp [finish]

/-- A computation that succeeds makes the instruction complete. -/
theorem finish_of_ok {x : Except FaultKind State} {t : State} (h : x = .ok t) : finish x = .next t := finish_next.mpr h

/-- An instruction never refuses. -/
theorem finish_ne_refused {x : Except FaultKind State} {r : Refusal} : finish x ≠ .refused r := by
  cases x <;> simp [finish]

/-! ## Accesses -/

theorem State.mapped_iff (s : State) (lin : BitVec 32) (n : Nat) :
    s.mapped lin n = true ↔ s.badAddr lin n = none := by
  rw [State.badAddr_eq_none]
  simp [State.mapped]

theorem State.memRead_iff {s : State} {w : Width} {lin : BitVec 32} {v : BitVec w.bits} :
    s.memRead w lin = .ok v ↔ s.mapped lin w.bytes = true ∧ v = s.load lin w := by
  rw [State.memRead_ok, State.mapped_iff]

theorem State.memRead_of {s : State} {w : Width} {lin : BitVec 32} (h : s.mapped lin w.bytes = true) :
    s.memRead w lin = .ok (s.load lin w) := State.memRead_iff.mpr ⟨h, rfl⟩

theorem State.memWrite_iff {s t : State} {w : Width} {lin : BitVec 32} {v : BitVec w.bits} :
    s.memWrite w lin v = .ok t ↔ s.mapped lin w.bytes = true ∧ t = s.store lin w v := by
  rw [State.memWrite_ok, State.mapped_iff]

theorem State.memWrite_of {s : State} {w : Width} {lin : BitVec 32} (v : BitVec w.bits)
    (h : s.mapped lin w.bytes = true) : s.memWrite w lin v = .ok (s.store lin w v) := State.memWrite_iff.mpr ⟨h, rfl⟩

theorem State.readAt_iff {s : State} {w : Width} {p : Place} {v : BitVec w.bits} :
    s.readAt w p = .ok v ↔ s.placeOk w p = true ∧ v = s.valueAt w p := by
  cases p with
  | reg r => simp [State.readAt, State.placeOk, State.valueAt, eq_comm]
  | mem lin => simp [State.readAt, State.placeOk, State.valueAt, State.memRead_iff]

theorem State.readRm_iff {s : State} {w : Width} {x : Rm} {v : BitVec w.bits} :
    s.readRm w x = .ok v ↔ s.placeOk w (s.place x) = true ∧ v = s.valueAt w (s.place x) := State.readAt_iff

theorem State.readRm_of {s : State} {w : Width} {x : Rm} (h : s.placeOk w (s.place x) = true) :
    s.readRm w x = .ok (s.valueAt w (s.place x)) := State.readRm_iff.mpr ⟨h, rfl⟩

theorem State.readOp_iff {s : State} {w : Width} {x : Operand} {v : BitVec w.bits} :
    s.readOp w x = .ok v ↔ s.operandOk w x = true ∧ v = s.operandValue w x := by
  cases x with
  | rm x => exact State.readRm_iff
  | imm i => simp [State.readOp, State.operandOk, State.operandValue, eq_comm]

theorem State.readOp_of {s : State} {w : Width} {x : Operand} (h : s.operandOk w x = true) :
    s.readOp w x = .ok (s.operandValue w x) := State.readOp_iff.mpr ⟨h, rfl⟩

theorem State.writeAt_iff {s t : State} {w : Width} {p : Place} {v : BitVec w.bits} :
    s.writeAt w p v = .ok t ↔ s.placeOk w p = true ∧ t = s.wrote w p v := by
  cases p with
  | reg r => simp [State.writeAt, State.placeOk, State.wrote, eq_comm]
  | mem lin => simp [State.writeAt, State.placeOk, State.wrote, State.memWrite_iff]

theorem State.writeRm_iff {s t : State} {w : Width} {x : Rm} {v : BitVec w.bits} :
    s.writeRm w x v = .ok t ↔ s.placeOk w (s.place x) = true ∧ t = s.wrote w (s.place x) v := State.writeAt_iff

theorem State.writeRm_of {s : State} {w : Width} {x : Rm} (v : BitVec w.bits) (h : s.placeOk w (s.place x) = true) :
    s.writeRm w x v = .ok (s.wrote w (s.place x) v) := State.writeRm_iff.mpr ⟨h, rfl⟩

/-! ## What a write of a place leaves alone -/

section
variable (s : State) (w : Width) (p : Place) (v : BitVec w.bits)
@[simp] theorem State.wrote_eip : (s.wrote w p v).eip = s.eip := by cases p <;> simp [State.wrote]
@[simp] theorem State.wrote_flags : (s.wrote w p v).flags = s.flags := by cases p <;> simp [State.wrote]
@[simp] theorem State.wrote_segs : (s.wrote w p v).segs = s.segs := by cases p <;> simp [State.wrote]
@[simp] theorem State.wrote_cr : (s.wrote w p v).cr = s.cr := by cases p <;> simp [State.wrote]
@[simp] theorem State.wrote_gdtr : (s.wrote w p v).gdtr = s.gdtr := by cases p <;> simp [State.wrote]
@[simp] theorem State.wrote_idtr : (s.wrote w p v).idtr = s.idtr := by cases p <;> simp [State.wrote]
@[simp] theorem State.wrote_mode : (s.wrote w p v).mode = s.mode := by cases p <;> simp [State.wrote]
@[simp] theorem State.wrote_latch : (s.wrote w p v).latch = s.latch := by cases p <;> simp [State.wrote]
@[simp] theorem State.wrote_halted : (s.wrote w p v).halted = s.halted := by cases p <;> simp [State.wrote]
@[simp] theorem State.wrote_intDepth : (s.wrote w p v).intDepth = s.intDepth := by cases p <;> simp [State.wrote]
@[simp] theorem State.wrote_cyc : (s.wrote w p v).cyc = s.cyc := by cases p <;> simp [State.wrote]
@[simp] theorem State.wrote_ioLog : (s.wrote w p v).ioLog = s.ioLog := by cases p <;> simp [State.wrote]
@[simp] theorem State.wrote_params : (s.wrote w p v).params = s.params := by cases p <;> simp [State.wrote]
@[simp] theorem State.wrote_draws : (s.wrote w p v).draws = s.draws := by cases p <;> simp [State.wrote]
end

/-- A write of the stack pointer is a write of one register. -/
theorem State.setSp_eq (s : State) (v : BitVec 32) : s.setSp v = s.setRegs (s.setSp v).regs := by
  unfold State.setSp; cases s.sw <;> rfl

section
variable (s : State) (v : BitVec 32)
@[simp] theorem State.setSp_eip : (s.setSp v).eip = s.eip := by rw [State.setSp_eq]; rfl
@[simp] theorem State.setSp_flags : (s.setSp v).flags = s.flags := by rw [State.setSp_eq]; rfl
@[simp] theorem State.setSp_segs : (s.setSp v).segs = s.segs := by rw [State.setSp_eq]; rfl
@[simp] theorem State.setSp_cr : (s.setSp v).cr = s.cr := by rw [State.setSp_eq]; rfl
@[simp] theorem State.setSp_gdtr : (s.setSp v).gdtr = s.gdtr := by rw [State.setSp_eq]; rfl
@[simp] theorem State.setSp_idtr : (s.setSp v).idtr = s.idtr := by rw [State.setSp_eq]; rfl
@[simp] theorem State.setSp_mode : (s.setSp v).mode = s.mode := by rw [State.setSp_eq]; rfl
@[simp] theorem State.setSp_latch : (s.setSp v).latch = s.latch := by rw [State.setSp_eq]; rfl
@[simp] theorem State.setSp_halted : (s.setSp v).halted = s.halted := by rw [State.setSp_eq]; rfl
@[simp] theorem State.setSp_intDepth : (s.setSp v).intDepth = s.intDepth := by rw [State.setSp_eq]; rfl
@[simp] theorem State.setSp_cyc : (s.setSp v).cyc = s.cyc := by rw [State.setSp_eq]; rfl
@[simp] theorem State.setSp_mem : (s.setSp v).mem = s.mem := by rw [State.setSp_eq]; rfl
@[simp] theorem State.setSp_ioLog : (s.setSp v).ioLog = s.ioLog := by rw [State.setSp_eq]; rfl
@[simp] theorem State.setSp_params : (s.setSp v).params = s.params := by rw [State.setSp_eq]; rfl
@[simp] theorem State.setSp_draws : (s.setSp v).draws = s.draws := by rw [State.setSp_eq]; rfl
end

/-! ## Registers: a view reads as what was last written to it, and a write keeps the bits outside the view (R55) -/

theorem Regs.get_set (r : Regs) (i j : Reg) (v : BitVec 32) : (r.set i v).get j = if j = i then v else r.get j := by
  cases i <;> cases j <;> rfl

theorem setByte_extract (old : BitVec 32) (h : Bool) (v : BitVec 8) :
    (setByte old h v).extractLsb' (if h then 8 else 0) 8 = v := by
  cases h <;> ext k hk <;> simp [setByte, BitVec.getElem_extractLsb']
  · refine (BitVec.getLsbD_append (x := old.extractLsb' 8 24) (y := v)).trans ?_
    simp [hk]
  · refine (BitVec.getLsbD_append (x := old.extractLsb' 16 16 ++ v) (y := old.extractLsb' 0 8)).trans ?_
    have : ¬ 8 + k < 8 := by omega
    rw [BitVec.getLsbD_append]
    simp [hk, this]

theorem setLow16_setWidth (old : BitVec 32) (v : BitVec 16) : (setLow16 old v).setWidth 16 = v := by
  ext k hk
  simp [setLow16]
  refine (BitVec.getLsbD_append (x := old.extractLsb' 16 16) (y := v)).trans ?_
  simp [hk]

theorem Regs.read_write_self (r : Regs) (w : Width) (i : Reg) (v : BitVec w.bits) : (r.write w i v).read w i = v := by
  cases w
  · simp only [Regs.write, Regs.read, Regs.get_set, if_true]
    exact setByte_extract _ _ v
  · simp only [Regs.write, Regs.read, Regs.get_set, if_true]
    exact setLow16_setWidth _ v
  · simp [Regs.write, Regs.read, Regs.get_set]

theorem Regs.get_write_of_ne (r : Regs) (w : Width) (i j : Reg) (v : BitVec w.bits) (h : j ≠ i.home w) :
    (r.write w i v).get j = r.get j := by
  cases w <;> simp only [Regs.write, Regs.get_set] <;> exact if_neg h

theorem State.reg_setReg_self (s : State) (w : Width) (i : Reg) (v : BitVec w.bits) : (s.setReg w i v).reg w i = v :=
  Regs.read_write_self s.regs w i v

/-! ## The stack (R370) -/

theorem State.sw_setSp (s : State) (v : BitVec 32) : (s.setSp v).sw = s.sw := by simp [State.sw]

/-- The stack pointer reads as what was last written to it, modulo 2^SW. -/
theorem State.sp_setSp (s : State) (v : BitVec 32) : (s.setSp v).sp = truncTo s.sw v := by
  unfold State.sp
  rw [State.sw_setSp]
  cases h : s.sw <;> simp [State.setSp, h, State.reg_setReg_self, truncTo]

theorem State.linear_setSp (s : State) (v : BitVec 32) (r : SegReg) (off : BitVec 32) :
    (s.setSp v).linear r off = s.linear r off := by simp [State.linear]

theorem State.mapped_setSp (s : State) (v lin : BitVec 32) (n : Nat) : (s.setSp v).mapped lin n = s.mapped lin n := by
  simp [State.mapped]

/-- A push succeeds exactly where its slot is inside memory, and stores the value there. -/
theorem State.push_iff {s t : State} {n : Size} {v : BitVec n.width.bits} :
    s.push n v = .ok t ↔ s.slotOk n 1 = true ∧ t = s.pushed n v := by
  have hlin : (s.setSp (s.sp - sizeStep n)).linear .ss (s.setSp (s.sp - sizeStep n)).sp = s.slot n 1 := by
    rw [State.sp_setSp, State.linear_setSp, State.slot]
    cases n <;> rfl
  simp only [State.push, State.memWrite_iff, hlin, State.mapped_setSp, State.slotOk, State.pushed]

theorem State.push_of {s : State} {n : Size} (v : BitVec n.width.bits) (h : s.slotOk n 1 = true) :
    s.push n v = .ok (s.pushed n v) := State.push_iff.mpr ⟨h, rfl⟩

/-- A pop succeeds exactly where the top of the stack is inside memory, and answers the value there. -/
theorem State.pop_iff {s t : State} {n : Size} {v : BitVec n.width.bits} :
    s.pop n = .ok (v, t) ↔ s.popOk n = true ∧ v = s.popValue n ∧ t = s.popped n := by
  simp only [State.pop, bind_ok, State.memRead_iff, State.popOk, State.top, State.popValue, State.popped]
  constructor
  · rintro ⟨a, ⟨h, rfl⟩, h2⟩
    cases h2
    exact ⟨h, rfl, rfl⟩
  · rintro ⟨h, rfl, rfl⟩
    exact ⟨_, ⟨h, rfl⟩, rfl⟩

theorem State.pop_of {s : State} {n : Size} (h : s.popOk n = true) : s.pop n = .ok (s.popValue n, s.popped n) :=
  State.pop_iff.mpr ⟨h, rfl, rfl⟩

section
variable (s : State) (n : Size) (v : BitVec n.width.bits)
@[simp] theorem State.pushed_regs : (s.pushed n v).regs = (s.setSp (s.sp - sizeStep n)).regs := by simp [State.pushed]
@[simp] theorem State.pushed_eip : (s.pushed n v).eip = s.eip := by simp [State.pushed]
@[simp] theorem State.pushed_flags : (s.pushed n v).flags = s.flags := by simp [State.pushed]
@[simp] theorem State.pushed_segs : (s.pushed n v).segs = s.segs := by simp [State.pushed]
@[simp] theorem State.pushed_cr : (s.pushed n v).cr = s.cr := by simp [State.pushed]
@[simp] theorem State.pushed_gdtr : (s.pushed n v).gdtr = s.gdtr := by simp [State.pushed]
@[simp] theorem State.pushed_idtr : (s.pushed n v).idtr = s.idtr := by simp [State.pushed]
@[simp] theorem State.pushed_mode : (s.pushed n v).mode = s.mode := by simp [State.pushed]
@[simp] theorem State.pushed_latch : (s.pushed n v).latch = s.latch := by simp [State.pushed]
@[simp] theorem State.pushed_halted : (s.pushed n v).halted = s.halted := by simp [State.pushed]
@[simp] theorem State.pushed_intDepth : (s.pushed n v).intDepth = s.intDepth := by simp [State.pushed]
@[simp] theorem State.pushed_cyc : (s.pushed n v).cyc = s.cyc := by simp [State.pushed]
@[simp] theorem State.pushed_ioLog : (s.pushed n v).ioLog = s.ioLog := by simp [State.pushed]
@[simp] theorem State.pushed_params : (s.pushed n v).params = s.params := by simp [State.pushed]
@[simp] theorem State.pushed_draws : (s.pushed n v).draws = s.draws := by simp [State.pushed]
end

/-! ## Segments (R131, R132, R529) -/

theorem State.memRead64_iff {s : State} {lin : BitVec 32} {v : BitVec 64} :
    s.memRead64 lin = .ok v ↔ s.mapped lin 8 = true ∧ v = s.load (lin + 4) .w32 ++ s.load lin .w32 := by
  rw [State.mapped_iff]
  unfold State.memRead64
  split
  · next h => simp [h]
  · next h => simp [h, eq_comm]

/-- Loading a selector succeeds exactly where it is allowed, and writes selector and descriptor together. -/
theorem State.setSelector_iff {s t : State} {r : SegReg} {v : BitVec 16} :
    s.setSelector r v = .ok t ↔ s.selectorOk r v = true ∧ t = s.setSeg r (s.segmentFor r v) := by
  unfold State.setSelector State.selectorOk State.segmentFor
  cases s.mode with
  | real => simp [eq_comm]
  | prot =>
    simp only [Bool.and_eq_true, Bool.not_eq_true', Bool.and_eq_false_iff, decide_eq_false_iff_not, decide_eq_true_eq]
    split
    · next h => simp [h.1, h.2]
    · next h =>
      have hcs : ¬r = .cs ∨ ¬BitVec.extractLsb' 3 13 v = 0 := by
        by_cases hr : r = .cs
        · exact .inr fun h0 => h ⟨hr, h0⟩
        · exact .inl hr
      split
      · next hl =>
        have : ¬(gdtOffset v).toNat + 7 ≤ s.gdtr.limit.toNat := by omega
        simp [this]
      · next hl =>
        have : (gdtOffset v).toNat + 7 ≤ s.gdtr.limit.toNat := by omega
        rw [bind_ok]
        constructor
        · rintro ⟨d, hd, ht⟩
          rw [State.memRead64_iff] at hd
          obtain ⟨hm, rfl⟩ := hd
          exact ⟨⟨⟨hcs, this⟩, hm⟩, by simpa using ht.symm⟩
        · rintro ⟨⟨_, hm⟩, rfl⟩
          exact ⟨_, State.memRead64_iff.mpr ⟨hm, rfl⟩, rfl⟩

theorem State.setSelector_of {s : State} {r : SegReg} {v : BitVec 16} (h : s.selectorOk r v = true) :
    s.setSelector r v = .ok (s.setSeg r (s.segmentFor r v)) := State.setSelector_iff.mpr ⟨h, rfl⟩

/-- A far transfer succeeds exactly where its selector can be loaded into CS. -/
theorem State.farTransfer_iff {s t : State} {sel : BitVec 16} {off : BitVec 32} :
    s.farTransfer sel off = .ok t ↔ s.selectorOk .cs sel = true ∧ t = s.transferred sel off := by
  simp only [State.farTransfer, bind_ok, State.setSelector_iff, State.transferred]
  constructor
  · rintro ⟨a, ⟨h, rfl⟩, h2⟩
    exact ⟨h, by simpa using h2.symm⟩
  · rintro ⟨h, rfl⟩
    exact ⟨_, ⟨h, rfl⟩, rfl⟩

theorem State.farTransfer_of {s : State} {sel : BitVec 16} {off : BitVec 32} (h : s.selectorOk .cs sel = true) :
    s.farTransfer sel off = .ok (s.transferred sel off) := State.farTransfer_iff.mpr ⟨h, rfl⟩

theorem State.readFar_iff {s : State} {os : Size} {m : MemRef} {x : BitVec 32 × BitVec 16} :
    s.readFar os m = .ok x ↔ s.farOk os m = true ∧ x = (s.farOff os m, s.farSel os m) := by
  unfold State.readFar State.farOk State.farOff State.farSel
  rw [bind_ok, Bool.and_eq_true]
  constructor
  · rintro ⟨a, h1, h⟩
    obtain ⟨b, h2, h3⟩ := bind_ok.mp h
    obtain ⟨m1, rfl⟩ := State.memRead_iff.mp h1
    obtain ⟨m2, rfl⟩ := (State.memRead_iff (w := .w16)).mp h2
    exact ⟨⟨m1, m2⟩, (Except.ok.inj h3).symm⟩
  · rintro ⟨⟨h1, h2⟩, rfl⟩
    exact ⟨_, State.memRead_of h1, bind_ok.mpr ⟨_, State.memRead_of (w := .w16) h2, rfl⟩⟩

theorem State.readFar_of {s : State} {os : Size} {m : MemRef} (h : s.farOk os m = true) :
    s.readFar os m = .ok (s.farOff os m, s.farSel os m) := State.readFar_iff.mpr ⟨h, rfl⟩

theorem State.readTable_iff {s : State} {os : Size} {m : MemRef} {x : TableReg} :
    s.readTable os m = .ok x ↔
      s.tableOk m = true ∧ x = ⟨tableBase os (s.load (s.memAddrPlus m 2) .w32), s.load (s.memAddr m) .w16⟩ := by
  unfold State.readTable State.tableOk
  rw [bind_ok, Bool.and_eq_true]
  constructor
  · rintro ⟨a, h1, h⟩
    obtain ⟨b, h2, h3⟩ := bind_ok.mp h
    obtain ⟨m1, rfl⟩ := (State.memRead_iff (w := .w16)).mp h1
    obtain ⟨m2, rfl⟩ := (State.memRead_iff (w := .w32)).mp h2
    exact ⟨⟨m1, m2⟩, (Except.ok.inj h3).symm⟩
  · rintro ⟨⟨h1, h2⟩, rfl⟩
    exact ⟨_, State.memRead_of (w := .w16) h1, bind_ok.mpr ⟨_, State.memRead_of (w := .w32) h2, rfl⟩⟩

theorem State.writeTable_iff {s t : State} {os : Size} {m : MemRef} {v : TableReg} :
    s.writeTable os m v = .ok t ↔
      s.tableOk m = true ∧
        t = (s.store (s.memAddr m) .w16 v.limit).store (s.memAddrPlus m 2) .w32 (tableBase os v.base) := by
  have hm : ∀ lin n, (s.store (s.memAddr m) .w16 v.limit).mapped lin n = s.mapped lin n := fun lin n => by
    simp [State.mapped]
  simp only [State.writeTable, bind_ok, State.memWrite_iff, State.tableOk, Bool.and_eq_true]
  constructor
  · rintro ⟨a, ⟨h1, rfl⟩, h2, rfl⟩
    rw [hm] at h2
    exact ⟨⟨h1, h2⟩, rfl⟩
  · rintro ⟨⟨h1, h2⟩, rfl⟩
    exact ⟨_, ⟨h1, rfl⟩, by rw [hm]; exact h2, rfl⟩

/-! ## Ports: what a call does, with a device and without one (R171 to R173) -/

theorem State.ioRead_of_device {s : State} {port : BitVec 16} {d : Nat} (w : Width) (h : s.deviceOf port = some d) :
    s.ioRead port w =
      ((Config.deviceRead s.draws d port w).setWidth w.bits,
        (s.logIo (.read d port w (((Config.deviceRead s.draws d port w).setWidth w.bits).setWidth 32))).drawn) := by
  simp [State.ioRead, h]

theorem State.ioRead_of_none {s : State} {port : BitVec 16} (w : Width) (h : s.deviceOf port = none) :
    s.ioRead port w = (s.unmappedValue w, s) := by
  simp [State.ioRead, h]

theorem State.ioWrite_of_device {s : State} {port : BitVec 16} {d : Nat} {w : Width} (v : BitVec w.bits)
    (h : s.deviceOf port = some d) : s.ioWrite port w v = s.logIo (.write d port w (v.setWidth 32)) := by
  simp [State.ioWrite, h]

theorem State.ioWrite_of_none {s : State} {port : BitVec 16} {w : Width} (v : BitVec w.bits) (h : s.deviceOf port = none) :
    s.ioWrite port w v = s := by
  simp [State.ioWrite, h]

end Sys2Proof.Machine
end

