-- ==== Sys2Proof/Laws/PerInstr.lean ====
section
/-! SUPPORT. Per instruction, as syntax: the encoding of a well-formed instruction has at least 1 and at most 11 bytes, so that
with up to 4 prefixes it is within the 15 bytes of R206. -/

namespace Sys2Proof

theorem bytes16_length (v : BitVec 16) : (bytes16 v).length = 2 := rfl

theorem bytes32_length (v : BitVec 32) : (bytes32 v).length = 4 := rfl

theorem sizeBytes_length (sz : Size) (v : BitVec 32) : (sizeBytes sz v).length ≤ 4 := by
  cases sz <;> simp [sizeBytes, bytes16, bytes32]

theorem immBytes_length (w : Width) (v : BitVec 32) : (immBytes w v).length ≤ 4 := by
  cases w <;> simp [immBytes, bytes16, bytes32]

theorem Disp.bytesOf16_length (d : Disp 16) : d.bytesOf16.length ≤ 2 := by cases d <;> simp [Disp.bytesOf16, bytes16]

theorem Disp.bytesOf32_length (d : Disp 32) : d.bytesOf32.length ≤ 4 := by cases d <;> simp [Disp.bytesOf32, bytes32]

theorem encodeEa_length (g : BitVec 3) (ea : Ea) : 0 < (encodeEa g ea).length ∧ (encodeEa g ea).length ≤ 6 := by
  cases ea with
  | a16 b d =>
    have := d.bytesOf16_length
    cases b <;> simp [encodeEa] <;> omega
  | a32 b i d =>
    have := d.bytesOf32_length
    cases b <;> cases i <;> simp only [encodeEa] <;> (try split) <;> simp <;> omega

theorem encodeRm_length (g : BitVec 3) (x : Rm) : 0 < (encodeRm g x).length ∧ (encodeRm g x).length ≤ 6 := by
  cases x with
  | reg r => simp [encodeRm]
  | mem m => exact encodeEa_length g m.ea

theorem encodeGroup_length (op k : Nat) (x : Rm) : 0 < (encodeGroup op k x).length ∧ (encodeGroup op k x).length ≤ 7 := by
  have := encodeRm_length (BitVec.ofNat 3 k) x
  simp only [encodeGroup, List.length_cons]
  omega

theorem encode0F_length (op : Nat) (g : BitVec 3) (x : Rm) :
    0 < (encode0F op g x).length ∧ (encode0F op g x).length ≤ 8 := by
  have := encodeRm_length g x
  simp only [encode0F, List.length_cons]
  omega

theorem encodeShift_length (k : Nat) (w : Width) (x : Rm) (c : ShiftCount) :
    0 < (encodeShift k w x c).length ∧ (encodeShift k w x c).length ≤ 8 := by
  cases c with
  | imm n =>
    have := encodeGroup_length (0xC0 + w.opBit) k x
    simp only [encodeShift, List.length_append, List.length_singleton]
    omega
  | one =>
    have := encodeGroup_length (0xD0 + w.opBit) k x
    simp only [encodeShift]
    omega
  | cl =>
    have := encodeGroup_length (0xD2 + w.opBit) k x
    simp only [encodeShift]
    omega

theorem encodeDouble_length (op : Nat) (x : Rm) (g : Reg) (c : ShiftCount) :
    0 < (encodeDouble op x g c).length ∧ (encodeDouble op x g c).length ≤ 9 := by
  have h := encode0F_length op g.toBits x
  have h1 := encode0F_length (op + 1) g.toBits x
  cases c <;> simp only [encodeDouble, List.length_append, List.length_singleton] <;> omega

theorem encodeBit_length (k : Nat) (x : Rm) (o : BitOff) : 0 < (encodeBit k x o).length ∧ (encodeBit k x o).length ≤ 9 := by
  cases o with
  | reg g =>
    have := encode0F_length (0x83 + 8 * k) g.toBits x
    simp only [encodeBit]
    omega
  | imm n =>
    have := encode0F_length 0xBA (BitVec.ofNat 3 k) x
    simp only [encodeBit, List.length_append, List.length_singleton]
    omega

theorem encodeJcc_length (c : Cond) (os : Size) (t : Rel) : 0 < (encodeJcc c os t).length ∧ (encodeJcc c os t).length ≤ 6 := by
  cases t with
  | short d => simp [encodeJcc]
  | near d =>
    have := sizeBytes_length os d
    simp only [encodeJcc, List.length_cons]
    omega

theorem encodeAlu_length (csz : Size) (p : Prefixes) (k : Nat) (w : Width) (d : Rm) (s : Operand)
    (h : pairOk csz p w d s = true) : 0 < (encodeAlu k w d s).length ∧ (encodeAlu k w d s).length ≤ 11 := by
  cases s with
  | imm v =>
    have h1 := encodeRm_length (BitVec.ofNat 3 k) d
    have h2 := immBytes_length w v
    simp only [encodeAlu, List.length_cons, List.length_append]
    omega
  | rm x =>
    cases x with
    | reg g =>
      have h1 := encodeRm_length g.toBits d
      simp only [encodeAlu, List.length_cons]
      omega
    | mem m =>
      cases d with
      | mem m' => simp [pairOk] at h
      | reg g =>
        have h1 := encodeEa_length g.toBits m.ea
        simp only [encodeAlu, List.length_cons]
        omega

theorem length_le_eleven {l : List Byte} {n : Nat} (hn : n ≤ 11) (h : 0 < l.length ∧ l.length ≤ n) :
    0 < l.length ∧ l.length ≤ 11 := ⟨h.1, h.2.trans hn⟩

theorem length_cons_le {a : Byte} {l : List Byte} {n : Nat} (h : l.length ≤ n) :
    0 < (a :: l).length ∧ (a :: l).length ≤ n + 1 := ⟨Nat.succ_pos _, Nat.succ_le_succ h⟩

theorem length_cons_bound {a : Byte} {l : List Byte} {n : Nat} (h : 0 < l.length ∧ l.length ≤ n) :
    0 < (a :: l).length ∧ (a :: l).length ≤ n + 1 := length_cons_le h.2

theorem length_append_bound {l m : List Byte} {n k : Nat} (h : 0 < l.length ∧ l.length ≤ n) (hm : m.length ≤ k) :
    0 < (l ++ m).length ∧ (l ++ m).length ≤ n + k := by
  rw [List.length_append]
  omega

theorem encodeTest_length (csz : Size) (p : Prefixes) (w : Width) (d : Rm) (s : Operand)
    (h : (Instr.test w d s).wf csz p = true) : 0 < (encode (.test w d s)).length ∧ (encode (.test w d s)).length ≤ 11 := by
  cases s with
  | imm v => exact length_append_bound (encodeGroup_length _ 0 d) (immBytes_length w v)
  | rm x =>
    cases x with
    | reg g => exact length_le_eleven (by decide) (length_cons_bound (encodeRm_length g.toBits d))
    | mem m => exact absurd (Bool.and_eq_true_iff.mp h).2 Bool.false_ne_true

theorem encodeMov_length (csz : Size) (p : Prefixes) (w : Width) (d : Rm) (s : Operand)
    (h : (Instr.mov w d s).wf csz p = true) : 0 < (encode (.mov w d s)).length ∧ (encode (.mov w d s)).length ≤ 11 := by
  cases s with
  | imm v => cases d <;> exact length_append_bound (encodeGroup_length _ 0 _) (immBytes_length w v)
  | rm x =>
    cases x with
    | reg g => cases d <;> exact length_le_eleven (by decide) (length_cons_bound (encodeRm_length g.toBits _))
    | mem m =>
      cases d with
      | mem m' => exact absurd (Bool.and_eq_true_iff.mp h).2 Bool.false_ne_true
      | reg g => exact length_le_eleven (by decide) (length_cons_bound (encodeEa_length g.toBits m.ea))

theorem encodePush_length (os : Size) (s : Rm) : 0 < (encode (.push os s)).length ∧ (encode (.push os s)).length ≤ 11 := by
  cases s with
  | reg r => exact ⟨Nat.succ_pos _, Nat.le_of_ble_eq_true rfl⟩
  | mem m => exact length_le_eleven (by decide) (length_cons_bound (encodeEa_length 6 m.ea))

theorem encodeJmp_length (os : Size) (t : Rel) :
    0 < (encode (.jmpRel os t)).length ∧ (encode (.jmpRel os t)).length ≤ 11 := by
  cases t with
  | short d => exact ⟨Nat.succ_pos _, Nat.le_of_ble_eq_true rfl⟩
  | near d => exact length_le_eleven (by decide) (length_cons_le (sizeBytes_length os d))

theorem encodeFar_length (op : Nat) (os : Size) (off : BitVec 32) (sel : BitVec 16) :
    0 < (opByte op :: (sizeBytes os off ++ bytes16 sel)).length ∧
      (opByte op :: (sizeBytes os off ++ bytes16 sel)).length ≤ 7 := by
  have := sizeBytes_length os off
  rw [List.length_cons, List.length_append, bytes16_length]
  omega

theorem badCode_length (c : BadCode) : 0 < (encode (.invalid c)).length ∧ (encode (.invalid c)).length ≤ 11 := by
  cases c <;> exact ⟨Nat.succ_pos _, Nat.le_of_ble_eq_true rfl⟩

/-- The encoding of an instruction, where it is well-formed, has 1 to 11 bytes. -/
def Laws.EncodeLength.Statement (i : Instr) : Prop :=
  ∀ csz p, i.wf csz p = true → 0 < (encode i).length ∧ (encode i).length ≤ 11

end Sys2Proof

theorem Sys2Proof.Laws.EncodeLength.prefixEs :
    Sys2Proof.Laws.EncodeLength.Statement (.prefixEs) :=
  fun _ _ _ => ⟨Nat.succ_pos _, Nat.le_of_ble_eq_true rfl⟩

theorem Sys2Proof.Laws.EncodeLength.prefixCs :
    Sys2Proof.Laws.EncodeLength.Statement (.prefixCs) :=
  fun _ _ _ => ⟨Nat.succ_pos _, Nat.le_of_ble_eq_true rfl⟩

theorem Sys2Proof.Laws.EncodeLength.prefixSs :
    Sys2Proof.Laws.EncodeLength.Statement (.prefixSs) :=
  fun _ _ _ => ⟨Nat.succ_pos _, Nat.le_of_ble_eq_true rfl⟩

theorem Sys2Proof.Laws.EncodeLength.prefixDs :
    Sys2Proof.Laws.EncodeLength.Statement (.prefixDs) :=
  fun _ _ _ => ⟨Nat.succ_pos _, Nat.le_of_ble_eq_true rfl⟩

theorem Sys2Proof.Laws.EncodeLength.prefixFs :
    Sys2Proof.Laws.EncodeLength.Statement (.prefixFs) :=
  fun _ _ _ => ⟨Nat.succ_pos _, Nat.le_of_ble_eq_true rfl⟩

theorem Sys2Proof.Laws.EncodeLength.prefixGs :
    Sys2Proof.Laws.EncodeLength.Statement (.prefixGs) :=
  fun _ _ _ => ⟨Nat.succ_pos _, Nat.le_of_ble_eq_true rfl⟩

theorem Sys2Proof.Laws.EncodeLength.prefixOpSize :
    Sys2Proof.Laws.EncodeLength.Statement (.prefixOpSize) :=
  fun _ _ _ => ⟨Nat.succ_pos _, Nat.le_of_ble_eq_true rfl⟩

theorem Sys2Proof.Laws.EncodeLength.prefixAddrSize :
    Sys2Proof.Laws.EncodeLength.Statement (.prefixAddrSize) :=
  fun _ _ _ => ⟨Nat.succ_pos _, Nat.le_of_ble_eq_true rfl⟩

theorem Sys2Proof.Laws.EncodeLength.prefixLock :
    Sys2Proof.Laws.EncodeLength.Statement (.prefixLock) :=
  fun _ _ _ => ⟨Nat.succ_pos _, Nat.le_of_ble_eq_true rfl⟩

theorem Sys2Proof.Laws.EncodeLength.prefixRepne :
    Sys2Proof.Laws.EncodeLength.Statement (.prefixRepne) :=
  fun _ _ _ => ⟨Nat.succ_pos _, Nat.le_of_ble_eq_true rfl⟩

theorem Sys2Proof.Laws.EncodeLength.prefixRep :
    Sys2Proof.Laws.EncodeLength.Statement (.prefixRep) :=
  fun _ _ _ => ⟨Nat.succ_pos _, Nat.le_of_ble_eq_true rfl⟩

theorem Sys2Proof.Laws.EncodeLength.add (w : Sys2Proof.Width) (dst : Sys2Proof.Rm) (src : Sys2Proof.Operand) :
    Sys2Proof.Laws.EncodeLength.Statement (.add w dst src) :=
  fun csz p h => Sys2Proof.encodeAlu_length csz p _ w dst src h

theorem Sys2Proof.Laws.EncodeLength.or (w : Sys2Proof.Width) (dst : Sys2Proof.Rm) (src : Sys2Proof.Operand) :
    Sys2Proof.Laws.EncodeLength.Statement (.or w dst src) :=
  fun csz p h => Sys2Proof.encodeAlu_length csz p _ w dst src h

theorem Sys2Proof.Laws.EncodeLength.adc (w : Sys2Proof.Width) (dst : Sys2Proof.Rm) (src : Sys2Proof.Operand) :
    Sys2Proof.Laws.EncodeLength.Statement (.adc w dst src) :=
  fun csz p h => Sys2Proof.encodeAlu_length csz p _ w dst src h

theorem Sys2Proof.Laws.EncodeLength.sbb (w : Sys2Proof.Width) (dst : Sys2Proof.Rm) (src : Sys2Proof.Operand) :
    Sys2Proof.Laws.EncodeLength.Statement (.sbb w dst src) :=
  fun csz p h => Sys2Proof.encodeAlu_length csz p _ w dst src h

theorem Sys2Proof.Laws.EncodeLength.and (w : Sys2Proof.Width) (dst : Sys2Proof.Rm) (src : Sys2Proof.Operand) :
    Sys2Proof.Laws.EncodeLength.Statement (.and w dst src) :=
  fun csz p h => Sys2Proof.encodeAlu_length csz p _ w dst src h

theorem Sys2Proof.Laws.EncodeLength.sub (w : Sys2Proof.Width) (dst : Sys2Proof.Rm) (src : Sys2Proof.Operand) :
    Sys2Proof.Laws.EncodeLength.Statement (.sub w dst src) :=
  fun csz p h => Sys2Proof.encodeAlu_length csz p _ w dst src h

theorem Sys2Proof.Laws.EncodeLength.xor (w : Sys2Proof.Width) (dst : Sys2Proof.Rm) (src : Sys2Proof.Operand) :
    Sys2Proof.Laws.EncodeLength.Statement (.xor w dst src) :=
  fun csz p h => Sys2Proof.encodeAlu_length csz p _ w dst src h

theorem Sys2Proof.Laws.EncodeLength.cmp (w : Sys2Proof.Width) (dst : Sys2Proof.Rm) (src : Sys2Proof.Operand) :
    Sys2Proof.Laws.EncodeLength.Statement (.cmp w dst src) :=
  fun csz p h => Sys2Proof.encodeAlu_length csz p _ w dst src h

theorem Sys2Proof.Laws.EncodeLength.test (w : Sys2Proof.Width) (dst : Sys2Proof.Rm) (src : Sys2Proof.Operand) :
    Sys2Proof.Laws.EncodeLength.Statement (.test w dst src) :=
  fun csz p h => Sys2Proof.encodeTest_length csz p w dst src h

theorem Sys2Proof.Laws.EncodeLength.inc (w : Sys2Proof.Width) (dst : Sys2Proof.Rm) :
    Sys2Proof.Laws.EncodeLength.Statement (.inc w dst) :=
  fun _ _ _ => Sys2Proof.length_le_eleven (by decide) (Sys2Proof.encodeGroup_length (0xFE + w.opBit) 0 dst)

theorem Sys2Proof.Laws.EncodeLength.dec (w : Sys2Proof.Width) (dst : Sys2Proof.Rm) :
    Sys2Proof.Laws.EncodeLength.Statement (.dec w dst) :=
  fun _ _ _ => Sys2Proof.length_le_eleven (by decide) (Sys2Proof.encodeGroup_length (0xFE + w.opBit) 1 dst)

theorem Sys2Proof.Laws.EncodeLength.neg (w : Sys2Proof.Width) (dst : Sys2Proof.Rm) :
    Sys2Proof.Laws.EncodeLength.Statement (.neg w dst) :=
  fun _ _ _ => Sys2Proof.length_le_eleven (by decide) (Sys2Proof.encodeGroup_length (0xF6 + w.opBit) 3 dst)

theorem Sys2Proof.Laws.EncodeLength.not (w : Sys2Proof.Width) (dst : Sys2Proof.Rm) :
    Sys2Proof.Laws.EncodeLength.Statement (.not w dst) :=
  fun _ _ _ => Sys2Proof.length_le_eleven (by decide) (Sys2Proof.encodeGroup_length (0xF6 + w.opBit) 2 dst)

theorem Sys2Proof.Laws.EncodeLength.mul (w : Sys2Proof.Width) (src : Sys2Proof.Rm) :
    Sys2Proof.Laws.EncodeLength.Statement (.mul w src) :=
  fun _ _ _ => Sys2Proof.length_le_eleven (by decide) (Sys2Proof.encodeGroup_length (0xF6 + w.opBit) 4 src)

theorem Sys2Proof.Laws.EncodeLength.imul (w : Sys2Proof.Width) (src : Sys2Proof.Rm) :
    Sys2Proof.Laws.EncodeLength.Statement (.imul w src) :=
  fun _ _ _ => Sys2Proof.length_le_eleven (by decide) (Sys2Proof.encodeGroup_length (0xF6 + w.opBit) 5 src)

theorem Sys2Proof.Laws.EncodeLength.imulReg (os : Sys2Proof.Size) (dst : Sys2Proof.Reg) (src : Sys2Proof.Rm) :
    Sys2Proof.Laws.EncodeLength.Statement (.imulReg os dst src) :=
  fun _ _ _ => Sys2Proof.length_le_eleven (by decide) (Sys2Proof.encode0F_length 0xAF dst.toBits src)

theorem Sys2Proof.Laws.EncodeLength.imulImm (os : Sys2Proof.Size) (dst : Sys2Proof.Reg) (src : Sys2Proof.Rm) (imm : BitVec 32) :
    Sys2Proof.Laws.EncodeLength.Statement (.imulImm os dst src imm) :=
  fun _ _ _ => Sys2Proof.length_le_eleven (by decide) (Sys2Proof.length_cons_bound (Sys2Proof.length_append_bound (Sys2Proof.encodeRm_length dst.toBits src) (Sys2Proof.immBytes_length os.width imm)))

theorem Sys2Proof.Laws.EncodeLength.div (w : Sys2Proof.Width) (src : Sys2Proof.Rm) :
    Sys2Proof.Laws.EncodeLength.Statement (.div w src) :=
  fun _ _ _ => Sys2Proof.length_le_eleven (by decide) (Sys2Proof.encodeGroup_length (0xF6 + w.opBit) 6 src)

theorem Sys2Proof.Laws.EncodeLength.idiv (w : Sys2Proof.Width) (src : Sys2Proof.Rm) :
    Sys2Proof.Laws.EncodeLength.Statement (.idiv w src) :=
  fun _ _ _ => Sys2Proof.length_le_eleven (by decide) (Sys2Proof.encodeGroup_length (0xF6 + w.opBit) 7 src)

theorem Sys2Proof.Laws.EncodeLength.daa :
    Sys2Proof.Laws.EncodeLength.Statement (.daa) :=
  fun _ _ _ => ⟨Nat.succ_pos _, Nat.le_of_ble_eq_true rfl⟩

theorem Sys2Proof.Laws.EncodeLength.das :
    Sys2Proof.Laws.EncodeLength.Statement (.das) :=
  fun _ _ _ => ⟨Nat.succ_pos _, Nat.le_of_ble_eq_true rfl⟩

theorem Sys2Proof.Laws.EncodeLength.aaa :
    Sys2Proof.Laws.EncodeLength.Statement (.aaa) :=
  fun _ _ _ => ⟨Nat.succ_pos _, Nat.le_of_ble_eq_true rfl⟩

theorem Sys2Proof.Laws.EncodeLength.aas :
    Sys2Proof.Laws.EncodeLength.Statement (.aas) :=
  fun _ _ _ => ⟨Nat.succ_pos _, Nat.le_of_ble_eq_true rfl⟩

theorem Sys2Proof.Laws.EncodeLength.aam (base : Sys2Proof.Byte) :
    Sys2Proof.Laws.EncodeLength.Statement (.aam base) :=
  fun _ _ _ => ⟨Nat.succ_pos _, Nat.le_of_ble_eq_true rfl⟩

theorem Sys2Proof.Laws.EncodeLength.aad (base : Sys2Proof.Byte) :
    Sys2Proof.Laws.EncodeLength.Statement (.aad base) :=
  fun _ _ _ => ⟨Nat.succ_pos _, Nat.le_of_ble_eq_true rfl⟩

theorem Sys2Proof.Laws.EncodeLength.rol (w : Sys2Proof.Width) (dst : Sys2Proof.Rm) (count : Sys2Proof.ShiftCount) :
    Sys2Proof.Laws.EncodeLength.Statement (.rol w dst count) :=
  fun _ _ _ => Sys2Proof.length_le_eleven (by decide) (Sys2Proof.encodeShift_length 0 w dst count)

theorem Sys2Proof.Laws.EncodeLength.ror (w : Sys2Proof.Width) (dst : Sys2Proof.Rm) (count : Sys2Proof.ShiftCount) :
    Sys2Proof.Laws.EncodeLength.Statement (.ror w dst count) :=
  fun _ _ _ => Sys2Proof.length_le_eleven (by decide) (Sys2Proof.encodeShift_length 1 w dst count)

theorem Sys2Proof.Laws.EncodeLength.rcl (w : Sys2Proof.Width) (dst : Sys2Proof.Rm) (count : Sys2Proof.ShiftCount) :
    Sys2Proof.Laws.EncodeLength.Statement (.rcl w dst count) :=
  fun _ _ _ => Sys2Proof.length_le_eleven (by decide) (Sys2Proof.encodeShift_length 2 w dst count)

theorem Sys2Proof.Laws.EncodeLength.rcr (w : Sys2Proof.Width) (dst : Sys2Proof.Rm) (count : Sys2Proof.ShiftCount) :
    Sys2Proof.Laws.EncodeLength.Statement (.rcr w dst count) :=
  fun _ _ _ => Sys2Proof.length_le_eleven (by decide) (Sys2Proof.encodeShift_length 3 w dst count)

theorem Sys2Proof.Laws.EncodeLength.shl (w : Sys2Proof.Width) (dst : Sys2Proof.Rm) (count : Sys2Proof.ShiftCount) :
    Sys2Proof.Laws.EncodeLength.Statement (.shl w dst count) :=
  fun _ _ _ => Sys2Proof.length_le_eleven (by decide) (Sys2Proof.encodeShift_length 4 w dst count)

theorem Sys2Proof.Laws.EncodeLength.shr (w : Sys2Proof.Width) (dst : Sys2Proof.Rm) (count : Sys2Proof.ShiftCount) :
    Sys2Proof.Laws.EncodeLength.Statement (.shr w dst count) :=
  fun _ _ _ => Sys2Proof.length_le_eleven (by decide) (Sys2Proof.encodeShift_length 5 w dst count)

theorem Sys2Proof.Laws.EncodeLength.sar (w : Sys2Proof.Width) (dst : Sys2Proof.Rm) (count : Sys2Proof.ShiftCount) :
    Sys2Proof.Laws.EncodeLength.Statement (.sar w dst count) :=
  fun _ _ _ => Sys2Proof.length_le_eleven (by decide) (Sys2Proof.encodeShift_length 7 w dst count)

theorem Sys2Proof.Laws.EncodeLength.shld (os : Sys2Proof.Size) (dst : Sys2Proof.Rm) (src : Sys2Proof.Reg) (count : Sys2Proof.ShiftCount) :
    Sys2Proof.Laws.EncodeLength.Statement (.shld os dst src count) :=
  fun _ _ _ => Sys2Proof.length_le_eleven (by decide) (Sys2Proof.encodeDouble_length 0xA4 dst src count)

theorem Sys2Proof.Laws.EncodeLength.shrd (os : Sys2Proof.Size) (dst : Sys2Proof.Rm) (src : Sys2Proof.Reg) (count : Sys2Proof.ShiftCount) :
    Sys2Proof.Laws.EncodeLength.Statement (.shrd os dst src count) :=
  fun _ _ _ => Sys2Proof.length_le_eleven (by decide) (Sys2Proof.encodeDouble_length 0xAC dst src count)

theorem Sys2Proof.Laws.EncodeLength.bt (os : Sys2Proof.Size) (dst : Sys2Proof.Rm) (off : Sys2Proof.BitOff) :
    Sys2Proof.Laws.EncodeLength.Statement (.bt os dst off) :=
  fun _ _ _ => Sys2Proof.length_le_eleven (by decide) (Sys2Proof.encodeBit_length 4 dst off)

theorem Sys2Proof.Laws.EncodeLength.bts (os : Sys2Proof.Size) (dst : Sys2Proof.Rm) (off : Sys2Proof.BitOff) :
    Sys2Proof.Laws.EncodeLength.Statement (.bts os dst off) :=
  fun _ _ _ => Sys2Proof.length_le_eleven (by decide) (Sys2Proof.encodeBit_length 5 dst off)

theorem Sys2Proof.Laws.EncodeLength.btr (os : Sys2Proof.Size) (dst : Sys2Proof.Rm) (off : Sys2Proof.BitOff) :
    Sys2Proof.Laws.EncodeLength.Statement (.btr os dst off) :=
  fun _ _ _ => Sys2Proof.length_le_eleven (by decide) (Sys2Proof.encodeBit_length 6 dst off)

theorem Sys2Proof.Laws.EncodeLength.btc (os : Sys2Proof.Size) (dst : Sys2Proof.Rm) (off : Sys2Proof.BitOff) :
    Sys2Proof.Laws.EncodeLength.Statement (.btc os dst off) :=
  fun _ _ _ => Sys2Proof.length_le_eleven (by decide) (Sys2Proof.encodeBit_length 7 dst off)

theorem Sys2Proof.Laws.EncodeLength.bsf (os : Sys2Proof.Size) (dst : Sys2Proof.Reg) (src : Sys2Proof.Rm) :
    Sys2Proof.Laws.EncodeLength.Statement (.bsf os dst src) :=
  fun _ _ _ => Sys2Proof.length_le_eleven (by decide) (Sys2Proof.encode0F_length 0xBC dst.toBits src)

theorem Sys2Proof.Laws.EncodeLength.bsr (os : Sys2Proof.Size) (dst : Sys2Proof.Reg) (src : Sys2Proof.Rm) :
    Sys2Proof.Laws.EncodeLength.Statement (.bsr os dst src) :=
  fun _ _ _ => Sys2Proof.length_le_eleven (by decide) (Sys2Proof.encode0F_length 0xBD dst.toBits src)

theorem Sys2Proof.Laws.EncodeLength.mov (w : Sys2Proof.Width) (dst : Sys2Proof.Rm) (src : Sys2Proof.Operand) :
    Sys2Proof.Laws.EncodeLength.Statement (.mov w dst src) :=
  fun csz p h => Sys2Proof.encodeMov_length csz p w dst src h

theorem Sys2Proof.Laws.EncodeLength.movAccMoffs (w : Sys2Proof.Width) (src : Sys2Proof.Moffs) :
    Sys2Proof.Laws.EncodeLength.Statement (.movAccMoffs w src) :=
  fun _ _ _ => Sys2Proof.length_le_eleven (by decide) (Sys2Proof.length_cons_le (Sys2Proof.sizeBytes_length src.size src.off))

theorem Sys2Proof.Laws.EncodeLength.movMoffsAcc (w : Sys2Proof.Width) (dst : Sys2Proof.Moffs) :
    Sys2Proof.Laws.EncodeLength.Statement (.movMoffsAcc w dst) :=
  fun _ _ _ => Sys2Proof.length_le_eleven (by decide) (Sys2Proof.length_cons_le (Sys2Proof.sizeBytes_length dst.size dst.off))

theorem Sys2Proof.Laws.EncodeLength.movFromSeg (os : Sys2Proof.Size) (dst : Sys2Proof.Rm) (src : Sys2Proof.SegReg) :
    Sys2Proof.Laws.EncodeLength.Statement (.movFromSeg os dst src) :=
  fun _ _ _ => Sys2Proof.length_le_eleven (by decide) (Sys2Proof.length_cons_bound (Sys2Proof.encodeRm_length src.toBits dst))

theorem Sys2Proof.Laws.EncodeLength.movToSeg (dst : Sys2Proof.SegReg) (src : Sys2Proof.Rm) :
    Sys2Proof.Laws.EncodeLength.Statement (.movToSeg dst src) :=
  fun _ _ _ => Sys2Proof.length_le_eleven (by decide) (Sys2Proof.length_cons_bound (Sys2Proof.encodeRm_length dst.toBits src))

theorem Sys2Proof.Laws.EncodeLength.movFromCr (dst : Sys2Proof.Reg) (src : Sys2Proof.CReg) :
    Sys2Proof.Laws.EncodeLength.Statement (.movFromCr dst src) :=
  fun _ _ _ => ⟨Nat.succ_pos _, Nat.le_of_ble_eq_true rfl⟩

theorem Sys2Proof.Laws.EncodeLength.movToCr (dst : Sys2Proof.CReg) (src : Sys2Proof.Reg) :
    Sys2Proof.Laws.EncodeLength.Statement (.movToCr dst src) :=
  fun _ _ _ => ⟨Nat.succ_pos _, Nat.le_of_ble_eq_true rfl⟩

theorem Sys2Proof.Laws.EncodeLength.xchg (w : Sys2Proof.Width) (op1 : Sys2Proof.Rm) (op2 : Sys2Proof.Reg) :
    Sys2Proof.Laws.EncodeLength.Statement (.xchg w op1 op2) :=
  fun _ _ _ => Sys2Proof.length_le_eleven (by decide) (Sys2Proof.length_cons_bound (Sys2Proof.encodeRm_length op2.toBits op1))

theorem Sys2Proof.Laws.EncodeLength.lea (os : Sys2Proof.Size) (dst : Sys2Proof.Reg) (src : Sys2Proof.Ea) :
    Sys2Proof.Laws.EncodeLength.Statement (.lea os dst src) :=
  fun _ _ _ => Sys2Proof.length_le_eleven (by decide) (Sys2Proof.length_cons_bound (Sys2Proof.encodeEa_length dst.toBits src))

theorem Sys2Proof.Laws.EncodeLength.movzxByte (os : Sys2Proof.Size) (dst : Sys2Proof.Reg) (src : Sys2Proof.Rm) :
    Sys2Proof.Laws.EncodeLength.Statement (.movzxByte os dst src) :=
  fun _ _ _ => Sys2Proof.length_le_eleven (by decide) (Sys2Proof.encode0F_length 0xB6 dst.toBits src)

theorem Sys2Proof.Laws.EncodeLength.movzxWord (os : Sys2Proof.Size) (dst : Sys2Proof.Reg) (src : Sys2Proof.Rm) :
    Sys2Proof.Laws.EncodeLength.Statement (.movzxWord os dst src) :=
  fun _ _ _ => Sys2Proof.length_le_eleven (by decide) (Sys2Proof.encode0F_length 0xB7 dst.toBits src)

theorem Sys2Proof.Laws.EncodeLength.movsxByte (os : Sys2Proof.Size) (dst : Sys2Proof.Reg) (src : Sys2Proof.Rm) :
    Sys2Proof.Laws.EncodeLength.Statement (.movsxByte os dst src) :=
  fun _ _ _ => Sys2Proof.length_le_eleven (by decide) (Sys2Proof.encode0F_length 0xBE dst.toBits src)

theorem Sys2Proof.Laws.EncodeLength.movsxWord (os : Sys2Proof.Size) (dst : Sys2Proof.Reg) (src : Sys2Proof.Rm) :
    Sys2Proof.Laws.EncodeLength.Statement (.movsxWord os dst src) :=
  fun _ _ _ => Sys2Proof.length_le_eleven (by decide) (Sys2Proof.encode0F_length 0xBF dst.toBits src)

theorem Sys2Proof.Laws.EncodeLength.lds (os : Sys2Proof.Size) (dst : Sys2Proof.Reg) (src : Sys2Proof.MemRef) :
    Sys2Proof.Laws.EncodeLength.Statement (.lds os dst src) :=
  fun _ _ _ => Sys2Proof.length_le_eleven (by decide) (Sys2Proof.length_cons_bound (Sys2Proof.encodeEa_length dst.toBits src.ea))

theorem Sys2Proof.Laws.EncodeLength.les (os : Sys2Proof.Size) (dst : Sys2Proof.Reg) (src : Sys2Proof.MemRef) :
    Sys2Proof.Laws.EncodeLength.Statement (.les os dst src) :=
  fun _ _ _ => Sys2Proof.length_le_eleven (by decide) (Sys2Proof.length_cons_bound (Sys2Proof.encodeEa_length dst.toBits src.ea))

theorem Sys2Proof.Laws.EncodeLength.lss (os : Sys2Proof.Size) (dst : Sys2Proof.Reg) (src : Sys2Proof.MemRef) :
    Sys2Proof.Laws.EncodeLength.Statement (.lss os dst src) :=
  fun _ _ _ => Sys2Proof.length_le_eleven (by decide) (Sys2Proof.length_cons_bound (Sys2Proof.length_cons_bound (Sys2Proof.encodeEa_length dst.toBits src.ea)))

theorem Sys2Proof.Laws.EncodeLength.lfs (os : Sys2Proof.Size) (dst : Sys2Proof.Reg) (src : Sys2Proof.MemRef) :
    Sys2Proof.Laws.EncodeLength.Statement (.lfs os dst src) :=
  fun _ _ _ => Sys2Proof.length_le_eleven (by decide) (Sys2Proof.length_cons_bound (Sys2Proof.length_cons_bound (Sys2Proof.encodeEa_length dst.toBits src.ea)))

theorem Sys2Proof.Laws.EncodeLength.lgs (os : Sys2Proof.Size) (dst : Sys2Proof.Reg) (src : Sys2Proof.MemRef) :
    Sys2Proof.Laws.EncodeLength.Statement (.lgs os dst src) :=
  fun _ _ _ => Sys2Proof.length_le_eleven (by decide) (Sys2Proof.length_cons_bound (Sys2Proof.length_cons_bound (Sys2Proof.encodeEa_length dst.toBits src.ea)))

theorem Sys2Proof.Laws.EncodeLength.cbw (os : Sys2Proof.Size) :
    Sys2Proof.Laws.EncodeLength.Statement (.cbw os) :=
  fun _ _ _ => ⟨Nat.succ_pos _, Nat.le_of_ble_eq_true rfl⟩

theorem Sys2Proof.Laws.EncodeLength.cwd (os : Sys2Proof.Size) :
    Sys2Proof.Laws.EncodeLength.Statement (.cwd os) :=
  fun _ _ _ => ⟨Nat.succ_pos _, Nat.le_of_ble_eq_true rfl⟩

theorem Sys2Proof.Laws.EncodeLength.lahf :
    Sys2Proof.Laws.EncodeLength.Statement (.lahf) :=
  fun _ _ _ => ⟨Nat.succ_pos _, Nat.le_of_ble_eq_true rfl⟩

theorem Sys2Proof.Laws.EncodeLength.sahf :
    Sys2Proof.Laws.EncodeLength.Statement (.sahf) :=
  fun _ _ _ => ⟨Nat.succ_pos _, Nat.le_of_ble_eq_true rfl⟩

theorem Sys2Proof.Laws.EncodeLength.xlat (as : Sys2Proof.Size) (seg : Sys2Proof.SegReg) :
    Sys2Proof.Laws.EncodeLength.Statement (.xlat as seg) :=
  fun _ _ _ => ⟨Nat.succ_pos _, Nat.le_of_ble_eq_true rfl⟩

theorem Sys2Proof.Laws.EncodeLength.seto (dst : Sys2Proof.Rm) :
    Sys2Proof.Laws.EncodeLength.Statement (.seto dst) :=
  fun _ _ _ => Sys2Proof.length_le_eleven (by decide) (Sys2Proof.encode0F_length (0x90 + Sys2Proof.Cond.o.code) 0 dst)

theorem Sys2Proof.Laws.EncodeLength.setno (dst : Sys2Proof.Rm) :
    Sys2Proof.Laws.EncodeLength.Statement (.setno dst) :=
  fun _ _ _ => Sys2Proof.length_le_eleven (by decide) (Sys2Proof.encode0F_length (0x90 + Sys2Proof.Cond.no.code) 0 dst)

theorem Sys2Proof.Laws.EncodeLength.setb (dst : Sys2Proof.Rm) :
    Sys2Proof.Laws.EncodeLength.Statement (.setb dst) :=
  fun _ _ _ => Sys2Proof.length_le_eleven (by decide) (Sys2Proof.encode0F_length (0x90 + Sys2Proof.Cond.b.code) 0 dst)

theorem Sys2Proof.Laws.EncodeLength.setae (dst : Sys2Proof.Rm) :
    Sys2Proof.Laws.EncodeLength.Statement (.setae dst) :=
  fun _ _ _ => Sys2Proof.length_le_eleven (by decide) (Sys2Proof.encode0F_length (0x90 + Sys2Proof.Cond.ae.code) 0 dst)

theorem Sys2Proof.Laws.EncodeLength.sete (dst : Sys2Proof.Rm) :
    Sys2Proof.Laws.EncodeLength.Statement (.sete dst) :=
  fun _ _ _ => Sys2Proof.length_le_eleven (by decide) (Sys2Proof.encode0F_length (0x90 + Sys2Proof.Cond.e.code) 0 dst)

theorem Sys2Proof.Laws.EncodeLength.setne (dst : Sys2Proof.Rm) :
    Sys2Proof.Laws.EncodeLength.Statement (.setne dst) :=
  fun _ _ _ => Sys2Proof.length_le_eleven (by decide) (Sys2Proof.encode0F_length (0x90 + Sys2Proof.Cond.ne.code) 0 dst)

theorem Sys2Proof.Laws.EncodeLength.setbe (dst : Sys2Proof.Rm) :
    Sys2Proof.Laws.EncodeLength.Statement (.setbe dst) :=
  fun _ _ _ => Sys2Proof.length_le_eleven (by decide) (Sys2Proof.encode0F_length (0x90 + Sys2Proof.Cond.be.code) 0 dst)

theorem Sys2Proof.Laws.EncodeLength.seta (dst : Sys2Proof.Rm) :
    Sys2Proof.Laws.EncodeLength.Statement (.seta dst) :=
  fun _ _ _ => Sys2Proof.length_le_eleven (by decide) (Sys2Proof.encode0F_length (0x90 + Sys2Proof.Cond.a.code) 0 dst)

theorem Sys2Proof.Laws.EncodeLength.sets (dst : Sys2Proof.Rm) :
    Sys2Proof.Laws.EncodeLength.Statement (.sets dst) :=
  fun _ _ _ => Sys2Proof.length_le_eleven (by decide) (Sys2Proof.encode0F_length (0x90 + Sys2Proof.Cond.s.code) 0 dst)

theorem Sys2Proof.Laws.EncodeLength.setns (dst : Sys2Proof.Rm) :
    Sys2Proof.Laws.EncodeLength.Statement (.setns dst) :=
  fun _ _ _ => Sys2Proof.length_le_eleven (by decide) (Sys2Proof.encode0F_length (0x90 + Sys2Proof.Cond.ns.code) 0 dst)

theorem Sys2Proof.Laws.EncodeLength.setp (dst : Sys2Proof.Rm) :
    Sys2Proof.Laws.EncodeLength.Statement (.setp dst) :=
  fun _ _ _ => Sys2Proof.length_le_eleven (by decide) (Sys2Proof.encode0F_length (0x90 + Sys2Proof.Cond.p.code) 0 dst)

theorem Sys2Proof.Laws.EncodeLength.setnp (dst : Sys2Proof.Rm) :
    Sys2Proof.Laws.EncodeLength.Statement (.setnp dst) :=
  fun _ _ _ => Sys2Proof.length_le_eleven (by decide) (Sys2Proof.encode0F_length (0x90 + Sys2Proof.Cond.np.code) 0 dst)

theorem Sys2Proof.Laws.EncodeLength.setl (dst : Sys2Proof.Rm) :
    Sys2Proof.Laws.EncodeLength.Statement (.setl dst) :=
  fun _ _ _ => Sys2Proof.length_le_eleven (by decide) (Sys2Proof.encode0F_length (0x90 + Sys2Proof.Cond.l.code) 0 dst)

theorem Sys2Proof.Laws.EncodeLength.setge (dst : Sys2Proof.Rm) :
    Sys2Proof.Laws.EncodeLength.Statement (.setge dst) :=
  fun _ _ _ => Sys2Proof.length_le_eleven (by decide) (Sys2Proof.encode0F_length (0x90 + Sys2Proof.Cond.ge.code) 0 dst)

theorem Sys2Proof.Laws.EncodeLength.setle (dst : Sys2Proof.Rm) :
    Sys2Proof.Laws.EncodeLength.Statement (.setle dst) :=
  fun _ _ _ => Sys2Proof.length_le_eleven (by decide) (Sys2Proof.encode0F_length (0x90 + Sys2Proof.Cond.le.code) 0 dst)

theorem Sys2Proof.Laws.EncodeLength.setg (dst : Sys2Proof.Rm) :
    Sys2Proof.Laws.EncodeLength.Statement (.setg dst) :=
  fun _ _ _ => Sys2Proof.length_le_eleven (by decide) (Sys2Proof.encode0F_length (0x90 + Sys2Proof.Cond.g.code) 0 dst)

theorem Sys2Proof.Laws.EncodeLength.push (os : Sys2Proof.Size) (src : Sys2Proof.Rm) :
    Sys2Proof.Laws.EncodeLength.Statement (.push os src) :=
  fun _ _ _ => Sys2Proof.encodePush_length os src

theorem Sys2Proof.Laws.EncodeLength.pushImm (os : Sys2Proof.Size) (imm : BitVec 32) :
    Sys2Proof.Laws.EncodeLength.Statement (.pushImm os imm) :=
  fun _ _ _ => Sys2Proof.length_le_eleven (by decide) (Sys2Proof.length_cons_le (Sys2Proof.immBytes_length os.width imm))

theorem Sys2Proof.Laws.EncodeLength.pushEs (os : Sys2Proof.Size) :
    Sys2Proof.Laws.EncodeLength.Statement (.pushEs os) :=
  fun _ _ _ => ⟨Nat.succ_pos _, Nat.le_of_ble_eq_true rfl⟩

theorem Sys2Proof.Laws.EncodeLength.pushCs (os : Sys2Proof.Size) :
    Sys2Proof.Laws.EncodeLength.Statement (.pushCs os) :=
  fun _ _ _ => ⟨Nat.succ_pos _, Nat.le_of_ble_eq_true rfl⟩

theorem Sys2Proof.Laws.EncodeLength.pushSs (os : Sys2Proof.Size) :
    Sys2Proof.Laws.EncodeLength.Statement (.pushSs os) :=
  fun _ _ _ => ⟨Nat.succ_pos _, Nat.le_of_ble_eq_true rfl⟩

theorem Sys2Proof.Laws.EncodeLength.pushDs (os : Sys2Proof.Size) :
    Sys2Proof.Laws.EncodeLength.Statement (.pushDs os) :=
  fun _ _ _ => ⟨Nat.succ_pos _, Nat.le_of_ble_eq_true rfl⟩

theorem Sys2Proof.Laws.EncodeLength.pushFs (os : Sys2Proof.Size) :
    Sys2Proof.Laws.EncodeLength.Statement (.pushFs os) :=
  fun _ _ _ => ⟨Nat.succ_pos _, Nat.le_of_ble_eq_true rfl⟩

theorem Sys2Proof.Laws.EncodeLength.pushGs (os : Sys2Proof.Size) :
    Sys2Proof.Laws.EncodeLength.Statement (.pushGs os) :=
  fun _ _ _ => ⟨Nat.succ_pos _, Nat.le_of_ble_eq_true rfl⟩

theorem Sys2Proof.Laws.EncodeLength.pop (os : Sys2Proof.Size) (dst : Sys2Proof.Reg) :
    Sys2Proof.Laws.EncodeLength.Statement (.pop os dst) :=
  fun _ _ _ => ⟨Nat.succ_pos _, Nat.le_of_ble_eq_true rfl⟩

theorem Sys2Proof.Laws.EncodeLength.popRm (os : Sys2Proof.Size) (dst : Sys2Proof.Rm) :
    Sys2Proof.Laws.EncodeLength.Statement (.popRm os dst) :=
  fun _ _ _ => Sys2Proof.length_le_eleven (by decide) (Sys2Proof.encodeGroup_length 0x8F 0 dst)

theorem Sys2Proof.Laws.EncodeLength.popEs (os : Sys2Proof.Size) :
    Sys2Proof.Laws.EncodeLength.Statement (.popEs os) :=
  fun _ _ _ => ⟨Nat.succ_pos _, Nat.le_of_ble_eq_true rfl⟩

theorem Sys2Proof.Laws.EncodeLength.popSs (os : Sys2Proof.Size) :
    Sys2Proof.Laws.EncodeLength.Statement (.popSs os) :=
  fun _ _ _ => ⟨Nat.succ_pos _, Nat.le_of_ble_eq_true rfl⟩

theorem Sys2Proof.Laws.EncodeLength.popDs (os : Sys2Proof.Size) :
    Sys2Proof.Laws.EncodeLength.Statement (.popDs os) :=
  fun _ _ _ => ⟨Nat.succ_pos _, Nat.le_of_ble_eq_true rfl⟩

theorem Sys2Proof.Laws.EncodeLength.popFs (os : Sys2Proof.Size) :
    Sys2Proof.Laws.EncodeLength.Statement (.popFs os) :=
  fun _ _ _ => ⟨Nat.succ_pos _, Nat.le_of_ble_eq_true rfl⟩

theorem Sys2Proof.Laws.EncodeLength.popGs (os : Sys2Proof.Size) :
    Sys2Proof.Laws.EncodeLength.Statement (.popGs os) :=
  fun _ _ _ => ⟨Nat.succ_pos _, Nat.le_of_ble_eq_true rfl⟩

theorem Sys2Proof.Laws.EncodeLength.pusha (os : Sys2Proof.Size) :
    Sys2Proof.Laws.EncodeLength.Statement (.pusha os) :=
  fun _ _ _ => ⟨Nat.succ_pos _, Nat.le_of_ble_eq_true rfl⟩

theorem Sys2Proof.Laws.EncodeLength.popa (os : Sys2Proof.Size) :
    Sys2Proof.Laws.EncodeLength.Statement (.popa os) :=
  fun _ _ _ => ⟨Nat.succ_pos _, Nat.le_of_ble_eq_true rfl⟩

theorem Sys2Proof.Laws.EncodeLength.pushf (os : Sys2Proof.Size) :
    Sys2Proof.Laws.EncodeLength.Statement (.pushf os) :=
  fun _ _ _ => ⟨Nat.succ_pos _, Nat.le_of_ble_eq_true rfl⟩

theorem Sys2Proof.Laws.EncodeLength.popf :
    Sys2Proof.Laws.EncodeLength.Statement (.popf) :=
  fun _ _ _ => ⟨Nat.succ_pos _, Nat.le_of_ble_eq_true rfl⟩

theorem Sys2Proof.Laws.EncodeLength.popfd :
    Sys2Proof.Laws.EncodeLength.Statement (.popfd) :=
  fun _ _ _ => ⟨Nat.succ_pos _, Nat.le_of_ble_eq_true rfl⟩

theorem Sys2Proof.Laws.EncodeLength.enter (os : Sys2Proof.Size) (alloc : BitVec 16) (level : Sys2Proof.Byte) :
    Sys2Proof.Laws.EncodeLength.Statement (.enter os alloc level) :=
  fun _ _ _ => ⟨Nat.succ_pos _, Nat.le_of_ble_eq_true rfl⟩

theorem Sys2Proof.Laws.EncodeLength.leave (os : Sys2Proof.Size) :
    Sys2Proof.Laws.EncodeLength.Statement (.leave os) :=
  fun _ _ _ => ⟨Nat.succ_pos _, Nat.le_of_ble_eq_true rfl⟩

theorem Sys2Proof.Laws.EncodeLength.jo (os : Sys2Proof.Size) (rel : Sys2Proof.Rel) :
    Sys2Proof.Laws.EncodeLength.Statement (.jo os rel) :=
  fun _ _ _ => Sys2Proof.length_le_eleven (by decide) (Sys2Proof.encodeJcc_length .o os rel)

theorem Sys2Proof.Laws.EncodeLength.jno (os : Sys2Proof.Size) (rel : Sys2Proof.Rel) :
    Sys2Proof.Laws.EncodeLength.Statement (.jno os rel) :=
  fun _ _ _ => Sys2Proof.length_le_eleven (by decide) (Sys2Proof.encodeJcc_length .no os rel)

theorem Sys2Proof.Laws.EncodeLength.jb (os : Sys2Proof.Size) (rel : Sys2Proof.Rel) :
    Sys2Proof.Laws.EncodeLength.Statement (.jb os rel) :=
  fun _ _ _ => Sys2Proof.length_le_eleven (by decide) (Sys2Proof.encodeJcc_length .b os rel)

theorem Sys2Proof.Laws.EncodeLength.jae (os : Sys2Proof.Size) (rel : Sys2Proof.Rel) :
    Sys2Proof.Laws.EncodeLength.Statement (.jae os rel) :=
  fun _ _ _ => Sys2Proof.length_le_eleven (by decide) (Sys2Proof.encodeJcc_length .ae os rel)

theorem Sys2Proof.Laws.EncodeLength.je (os : Sys2Proof.Size) (rel : Sys2Proof.Rel) :
    Sys2Proof.Laws.EncodeLength.Statement (.je os rel) :=
  fun _ _ _ => Sys2Proof.length_le_eleven (by decide) (Sys2Proof.encodeJcc_length .e os rel)

theorem Sys2Proof.Laws.EncodeLength.jne (os : Sys2Proof.Size) (rel : Sys2Proof.Rel) :
    Sys2Proof.Laws.EncodeLength.Statement (.jne os rel) :=
  fun _ _ _ => Sys2Proof.length_le_eleven (by decide) (Sys2Proof.encodeJcc_length .ne os rel)

theorem Sys2Proof.Laws.EncodeLength.jbe (os : Sys2Proof.Size) (rel : Sys2Proof.Rel) :
    Sys2Proof.Laws.EncodeLength.Statement (.jbe os rel) :=
  fun _ _ _ => Sys2Proof.length_le_eleven (by decide) (Sys2Proof.encodeJcc_length .be os rel)

theorem Sys2Proof.Laws.EncodeLength.ja (os : Sys2Proof.Size) (rel : Sys2Proof.Rel) :
    Sys2Proof.Laws.EncodeLength.Statement (.ja os rel) :=
  fun _ _ _ => Sys2Proof.length_le_eleven (by decide) (Sys2Proof.encodeJcc_length .a os rel)

theorem Sys2Proof.Laws.EncodeLength.js (os : Sys2Proof.Size) (rel : Sys2Proof.Rel) :
    Sys2Proof.Laws.EncodeLength.Statement (.js os rel) :=
  fun _ _ _ => Sys2Proof.length_le_eleven (by decide) (Sys2Proof.encodeJcc_length .s os rel)

theorem Sys2Proof.Laws.EncodeLength.jns (os : Sys2Proof.Size) (rel : Sys2Proof.Rel) :
    Sys2Proof.Laws.EncodeLength.Statement (.jns os rel) :=
  fun _ _ _ => Sys2Proof.length_le_eleven (by decide) (Sys2Proof.encodeJcc_length .ns os rel)

theorem Sys2Proof.Laws.EncodeLength.jp (os : Sys2Proof.Size) (rel : Sys2Proof.Rel) :
    Sys2Proof.Laws.EncodeLength.Statement (.jp os rel) :=
  fun _ _ _ => Sys2Proof.length_le_eleven (by decide) (Sys2Proof.encodeJcc_length .p os rel)

theorem Sys2Proof.Laws.EncodeLength.jnp (os : Sys2Proof.Size) (rel : Sys2Proof.Rel) :
    Sys2Proof.Laws.EncodeLength.Statement (.jnp os rel) :=
  fun _ _ _ => Sys2Proof.length_le_eleven (by decide) (Sys2Proof.encodeJcc_length .np os rel)

theorem Sys2Proof.Laws.EncodeLength.jl (os : Sys2Proof.Size) (rel : Sys2Proof.Rel) :
    Sys2Proof.Laws.EncodeLength.Statement (.jl os rel) :=
  fun _ _ _ => Sys2Proof.length_le_eleven (by decide) (Sys2Proof.encodeJcc_length .l os rel)

theorem Sys2Proof.Laws.EncodeLength.jge (os : Sys2Proof.Size) (rel : Sys2Proof.Rel) :
    Sys2Proof.Laws.EncodeLength.Statement (.jge os rel) :=
  fun _ _ _ => Sys2Proof.length_le_eleven (by decide) (Sys2Proof.encodeJcc_length .ge os rel)

theorem Sys2Proof.Laws.EncodeLength.jle (os : Sys2Proof.Size) (rel : Sys2Proof.Rel) :
    Sys2Proof.Laws.EncodeLength.Statement (.jle os rel) :=
  fun _ _ _ => Sys2Proof.length_le_eleven (by decide) (Sys2Proof.encodeJcc_length .le os rel)

theorem Sys2Proof.Laws.EncodeLength.jg (os : Sys2Proof.Size) (rel : Sys2Proof.Rel) :
    Sys2Proof.Laws.EncodeLength.Statement (.jg os rel) :=
  fun _ _ _ => Sys2Proof.length_le_eleven (by decide) (Sys2Proof.encodeJcc_length .g os rel)

theorem Sys2Proof.Laws.EncodeLength.jcxz (os : Sys2Proof.Size) (as : Sys2Proof.Size) (rel : Sys2Proof.Byte) :
    Sys2Proof.Laws.EncodeLength.Statement (.jcxz os as rel) :=
  fun _ _ _ => ⟨Nat.succ_pos _, Nat.le_of_ble_eq_true rfl⟩

theorem Sys2Proof.Laws.EncodeLength.loop (os : Sys2Proof.Size) (as : Sys2Proof.Size) (rel : Sys2Proof.Byte) :
    Sys2Proof.Laws.EncodeLength.Statement (.loop os as rel) :=
  fun _ _ _ => ⟨Nat.succ_pos _, Nat.le_of_ble_eq_true rfl⟩

theorem Sys2Proof.Laws.EncodeLength.loope (os : Sys2Proof.Size) (as : Sys2Proof.Size) (rel : Sys2Proof.Byte) :
    Sys2Proof.Laws.EncodeLength.Statement (.loope os as rel) :=
  fun _ _ _ => ⟨Nat.succ_pos _, Nat.le_of_ble_eq_true rfl⟩

theorem Sys2Proof.Laws.EncodeLength.loopne (os : Sys2Proof.Size) (as : Sys2Proof.Size) (rel : Sys2Proof.Byte) :
    Sys2Proof.Laws.EncodeLength.Statement (.loopne os as rel) :=
  fun _ _ _ => ⟨Nat.succ_pos _, Nat.le_of_ble_eq_true rfl⟩

theorem Sys2Proof.Laws.EncodeLength.jmpRel (os : Sys2Proof.Size) (rel : Sys2Proof.Rel) :
    Sys2Proof.Laws.EncodeLength.Statement (.jmpRel os rel) :=
  fun _ _ _ => Sys2Proof.encodeJmp_length os rel

theorem Sys2Proof.Laws.EncodeLength.jmpInd (os : Sys2Proof.Size) (src : Sys2Proof.Rm) :
    Sys2Proof.Laws.EncodeLength.Statement (.jmpInd os src) :=
  fun _ _ _ => Sys2Proof.length_le_eleven (by decide) (Sys2Proof.encodeGroup_length 0xFF 4 src)

theorem Sys2Proof.Laws.EncodeLength.jmpFar (os : Sys2Proof.Size) (off : BitVec 32) (sel : BitVec 16) :
    Sys2Proof.Laws.EncodeLength.Statement (.jmpFar os off sel) :=
  fun _ _ _ => Sys2Proof.length_le_eleven (by decide) (Sys2Proof.encodeFar_length _ os off sel)

theorem Sys2Proof.Laws.EncodeLength.jmpFarInd (os : Sys2Proof.Size) (src : Sys2Proof.MemRef) :
    Sys2Proof.Laws.EncodeLength.Statement (.jmpFarInd os src) :=
  fun _ _ _ => Sys2Proof.length_le_eleven (by decide) (Sys2Proof.length_cons_bound (Sys2Proof.encodeEa_length 5 src.ea))

theorem Sys2Proof.Laws.EncodeLength.callRel (os : Sys2Proof.Size) (rel : BitVec 32) :
    Sys2Proof.Laws.EncodeLength.Statement (.callRel os rel) :=
  fun _ _ _ => Sys2Proof.length_le_eleven (by decide) (Sys2Proof.length_cons_le (Sys2Proof.sizeBytes_length os rel))

theorem Sys2Proof.Laws.EncodeLength.callInd (os : Sys2Proof.Size) (src : Sys2Proof.Rm) :
    Sys2Proof.Laws.EncodeLength.Statement (.callInd os src) :=
  fun _ _ _ => Sys2Proof.length_le_eleven (by decide) (Sys2Proof.encodeGroup_length 0xFF 2 src)

theorem Sys2Proof.Laws.EncodeLength.callFar (os : Sys2Proof.Size) (off : BitVec 32) (sel : BitVec 16) :
    Sys2Proof.Laws.EncodeLength.Statement (.callFar os off sel) :=
  fun _ _ _ => Sys2Proof.length_le_eleven (by decide) (Sys2Proof.encodeFar_length _ os off sel)

theorem Sys2Proof.Laws.EncodeLength.callFarInd (os : Sys2Proof.Size) (src : Sys2Proof.MemRef) :
    Sys2Proof.Laws.EncodeLength.Statement (.callFarInd os src) :=
  fun _ _ _ => Sys2Proof.length_le_eleven (by decide) (Sys2Proof.length_cons_bound (Sys2Proof.encodeEa_length 3 src.ea))

theorem Sys2Proof.Laws.EncodeLength.ret (os : Sys2Proof.Size) :
    Sys2Proof.Laws.EncodeLength.Statement (.ret os) :=
  fun _ _ _ => ⟨Nat.succ_pos _, Nat.le_of_ble_eq_true rfl⟩

theorem Sys2Proof.Laws.EncodeLength.retImm (os : Sys2Proof.Size) (imm : BitVec 16) :
    Sys2Proof.Laws.EncodeLength.Statement (.retImm os imm) :=
  fun _ _ _ => ⟨Nat.succ_pos _, Nat.le_of_ble_eq_true rfl⟩

theorem Sys2Proof.Laws.EncodeLength.retf (os : Sys2Proof.Size) :
    Sys2Proof.Laws.EncodeLength.Statement (.retf os) :=
  fun _ _ _ => ⟨Nat.succ_pos _, Nat.le_of_ble_eq_true rfl⟩

theorem Sys2Proof.Laws.EncodeLength.retfImm (os : Sys2Proof.Size) (imm : BitVec 16) :
    Sys2Proof.Laws.EncodeLength.Statement (.retfImm os imm) :=
  fun _ _ _ => ⟨Nat.succ_pos _, Nat.le_of_ble_eq_true rfl⟩

theorem Sys2Proof.Laws.EncodeLength.int (vector : Sys2Proof.Byte) :
    Sys2Proof.Laws.EncodeLength.Statement (.int vector) :=
  fun _ _ _ => ⟨Nat.succ_pos _, Nat.le_of_ble_eq_true rfl⟩

theorem Sys2Proof.Laws.EncodeLength.int3 :
    Sys2Proof.Laws.EncodeLength.Statement (.int3) :=
  fun _ _ _ => ⟨Nat.succ_pos _, Nat.le_of_ble_eq_true rfl⟩

theorem Sys2Proof.Laws.EncodeLength.into :
    Sys2Proof.Laws.EncodeLength.Statement (.into) :=
  fun _ _ _ => ⟨Nat.succ_pos _, Nat.le_of_ble_eq_true rfl⟩

theorem Sys2Proof.Laws.EncodeLength.iret (os : Sys2Proof.Size) :
    Sys2Proof.Laws.EncodeLength.Statement (.iret os) :=
  fun _ _ _ => ⟨Nat.succ_pos _, Nat.le_of_ble_eq_true rfl⟩

theorem Sys2Proof.Laws.EncodeLength.movsb (as : Sys2Proof.Size) (seg : Sys2Proof.SegReg) (rep : Bool) :
    Sys2Proof.Laws.EncodeLength.Statement (.movsb as seg rep) :=
  fun _ _ _ => ⟨Nat.succ_pos _, Nat.le_of_ble_eq_true rfl⟩

theorem Sys2Proof.Laws.EncodeLength.movsw (os : Sys2Proof.Size) (as : Sys2Proof.Size) (seg : Sys2Proof.SegReg) (rep : Bool) :
    Sys2Proof.Laws.EncodeLength.Statement (.movsw os as seg rep) :=
  fun _ _ _ => ⟨Nat.succ_pos _, Nat.le_of_ble_eq_true rfl⟩

theorem Sys2Proof.Laws.EncodeLength.cmpsb (as : Sys2Proof.Size) (seg : Sys2Proof.SegReg) (rep : Sys2Proof.CmpRep) :
    Sys2Proof.Laws.EncodeLength.Statement (.cmpsb as seg rep) :=
  fun _ _ _ => ⟨Nat.succ_pos _, Nat.le_of_ble_eq_true rfl⟩

theorem Sys2Proof.Laws.EncodeLength.cmpsw (os : Sys2Proof.Size) (as : Sys2Proof.Size) (seg : Sys2Proof.SegReg) (rep : Sys2Proof.CmpRep) :
    Sys2Proof.Laws.EncodeLength.Statement (.cmpsw os as seg rep) :=
  fun _ _ _ => ⟨Nat.succ_pos _, Nat.le_of_ble_eq_true rfl⟩

theorem Sys2Proof.Laws.EncodeLength.stosb (as : Sys2Proof.Size) (rep : Bool) :
    Sys2Proof.Laws.EncodeLength.Statement (.stosb as rep) :=
  fun _ _ _ => ⟨Nat.succ_pos _, Nat.le_of_ble_eq_true rfl⟩

theorem Sys2Proof.Laws.EncodeLength.stosw (os : Sys2Proof.Size) (as : Sys2Proof.Size) (rep : Bool) :
    Sys2Proof.Laws.EncodeLength.Statement (.stosw os as rep) :=
  fun _ _ _ => ⟨Nat.succ_pos _, Nat.le_of_ble_eq_true rfl⟩

theorem Sys2Proof.Laws.EncodeLength.lodsb (as : Sys2Proof.Size) (seg : Sys2Proof.SegReg) (rep : Bool) :
    Sys2Proof.Laws.EncodeLength.Statement (.lodsb as seg rep) :=
  fun _ _ _ => ⟨Nat.succ_pos _, Nat.le_of_ble_eq_true rfl⟩

theorem Sys2Proof.Laws.EncodeLength.lodsw (os : Sys2Proof.Size) (as : Sys2Proof.Size) (seg : Sys2Proof.SegReg) (rep : Bool) :
    Sys2Proof.Laws.EncodeLength.Statement (.lodsw os as seg rep) :=
  fun _ _ _ => ⟨Nat.succ_pos _, Nat.le_of_ble_eq_true rfl⟩

theorem Sys2Proof.Laws.EncodeLength.scasb (as : Sys2Proof.Size) (rep : Sys2Proof.CmpRep) :
    Sys2Proof.Laws.EncodeLength.Statement (.scasb as rep) :=
  fun _ _ _ => ⟨Nat.succ_pos _, Nat.le_of_ble_eq_true rfl⟩

theorem Sys2Proof.Laws.EncodeLength.scasw (os : Sys2Proof.Size) (as : Sys2Proof.Size) (rep : Sys2Proof.CmpRep) :
    Sys2Proof.Laws.EncodeLength.Statement (.scasw os as rep) :=
  fun _ _ _ => ⟨Nat.succ_pos _, Nat.le_of_ble_eq_true rfl⟩

theorem Sys2Proof.Laws.EncodeLength.insb (as : Sys2Proof.Size) (rep : Bool) :
    Sys2Proof.Laws.EncodeLength.Statement (.insb as rep) :=
  fun _ _ _ => ⟨Nat.succ_pos _, Nat.le_of_ble_eq_true rfl⟩

theorem Sys2Proof.Laws.EncodeLength.insw (os : Sys2Proof.Size) (as : Sys2Proof.Size) (rep : Bool) :
    Sys2Proof.Laws.EncodeLength.Statement (.insw os as rep) :=
  fun _ _ _ => ⟨Nat.succ_pos _, Nat.le_of_ble_eq_true rfl⟩

theorem Sys2Proof.Laws.EncodeLength.outsb (as : Sys2Proof.Size) (seg : Sys2Proof.SegReg) (rep : Bool) :
    Sys2Proof.Laws.EncodeLength.Statement (.outsb as seg rep) :=
  fun _ _ _ => ⟨Nat.succ_pos _, Nat.le_of_ble_eq_true rfl⟩

theorem Sys2Proof.Laws.EncodeLength.outsw (os : Sys2Proof.Size) (as : Sys2Proof.Size) (seg : Sys2Proof.SegReg) (rep : Bool) :
    Sys2Proof.Laws.EncodeLength.Statement (.outsw os as seg rep) :=
  fun _ _ _ => ⟨Nat.succ_pos _, Nat.le_of_ble_eq_true rfl⟩

theorem Sys2Proof.Laws.EncodeLength.inImm (w : Sys2Proof.Width) (port : Sys2Proof.Byte) :
    Sys2Proof.Laws.EncodeLength.Statement (.inImm w port) :=
  fun _ _ _ => ⟨Nat.succ_pos _, Nat.le_of_ble_eq_true rfl⟩

theorem Sys2Proof.Laws.EncodeLength.inDx (w : Sys2Proof.Width) :
    Sys2Proof.Laws.EncodeLength.Statement (.inDx w) :=
  fun _ _ _ => ⟨Nat.succ_pos _, Nat.le_of_ble_eq_true rfl⟩

theorem Sys2Proof.Laws.EncodeLength.outImm (w : Sys2Proof.Width) (port : Sys2Proof.Byte) :
    Sys2Proof.Laws.EncodeLength.Statement (.outImm w port) :=
  fun _ _ _ => ⟨Nat.succ_pos _, Nat.le_of_ble_eq_true rfl⟩

theorem Sys2Proof.Laws.EncodeLength.outDx (w : Sys2Proof.Width) :
    Sys2Proof.Laws.EncodeLength.Statement (.outDx w) :=
  fun _ _ _ => ⟨Nat.succ_pos _, Nat.le_of_ble_eq_true rfl⟩

theorem Sys2Proof.Laws.EncodeLength.clc :
    Sys2Proof.Laws.EncodeLength.Statement (.clc) :=
  fun _ _ _ => ⟨Nat.succ_pos _, Nat.le_of_ble_eq_true rfl⟩

theorem Sys2Proof.Laws.EncodeLength.stc :
    Sys2Proof.Laws.EncodeLength.Statement (.stc) :=
  fun _ _ _ => ⟨Nat.succ_pos _, Nat.le_of_ble_eq_true rfl⟩

theorem Sys2Proof.Laws.EncodeLength.cmc :
    Sys2Proof.Laws.EncodeLength.Statement (.cmc) :=
  fun _ _ _ => ⟨Nat.succ_pos _, Nat.le_of_ble_eq_true rfl⟩

theorem Sys2Proof.Laws.EncodeLength.cli :
    Sys2Proof.Laws.EncodeLength.Statement (.cli) :=
  fun _ _ _ => ⟨Nat.succ_pos _, Nat.le_of_ble_eq_true rfl⟩

theorem Sys2Proof.Laws.EncodeLength.sti :
    Sys2Proof.Laws.EncodeLength.Statement (.sti) :=
  fun _ _ _ => ⟨Nat.succ_pos _, Nat.le_of_ble_eq_true rfl⟩

theorem Sys2Proof.Laws.EncodeLength.cld :
    Sys2Proof.Laws.EncodeLength.Statement (.cld) :=
  fun _ _ _ => ⟨Nat.succ_pos _, Nat.le_of_ble_eq_true rfl⟩

theorem Sys2Proof.Laws.EncodeLength.std :
    Sys2Proof.Laws.EncodeLength.Statement (.std) :=
  fun _ _ _ => ⟨Nat.succ_pos _, Nat.le_of_ble_eq_true rfl⟩

theorem Sys2Proof.Laws.EncodeLength.nop :
    Sys2Proof.Laws.EncodeLength.Statement (.nop) :=
  fun _ _ _ => ⟨Nat.succ_pos _, Nat.le_of_ble_eq_true rfl⟩

theorem Sys2Proof.Laws.EncodeLength.wait :
    Sys2Proof.Laws.EncodeLength.Statement (.wait) :=
  fun _ _ _ => ⟨Nat.succ_pos _, Nat.le_of_ble_eq_true rfl⟩

theorem Sys2Proof.Laws.EncodeLength.hlt :
    Sys2Proof.Laws.EncodeLength.Statement (.hlt) :=
  fun _ _ _ => ⟨Nat.succ_pos _, Nat.le_of_ble_eq_true rfl⟩

theorem Sys2Proof.Laws.EncodeLength.lgdt (os : Sys2Proof.Size) (src : Sys2Proof.MemRef) :
    Sys2Proof.Laws.EncodeLength.Statement (.lgdt os src) :=
  fun _ _ _ => Sys2Proof.length_le_eleven (by decide) (Sys2Proof.length_cons_bound (Sys2Proof.length_cons_bound (Sys2Proof.encodeEa_length 2 src.ea)))

theorem Sys2Proof.Laws.EncodeLength.lidt (os : Sys2Proof.Size) (src : Sys2Proof.MemRef) :
    Sys2Proof.Laws.EncodeLength.Statement (.lidt os src) :=
  fun _ _ _ => Sys2Proof.length_le_eleven (by decide) (Sys2Proof.length_cons_bound (Sys2Proof.length_cons_bound (Sys2Proof.encodeEa_length 3 src.ea)))

theorem Sys2Proof.Laws.EncodeLength.sgdt (os : Sys2Proof.Size) (dst : Sys2Proof.MemRef) :
    Sys2Proof.Laws.EncodeLength.Statement (.sgdt os dst) :=
  fun _ _ _ => Sys2Proof.length_le_eleven (by decide) (Sys2Proof.length_cons_bound (Sys2Proof.length_cons_bound (Sys2Proof.encodeEa_length 0 dst.ea)))

theorem Sys2Proof.Laws.EncodeLength.sidt (os : Sys2Proof.Size) (dst : Sys2Proof.MemRef) :
    Sys2Proof.Laws.EncodeLength.Statement (.sidt os dst) :=
  fun _ _ _ => Sys2Proof.length_le_eleven (by decide) (Sys2Proof.length_cons_bound (Sys2Proof.length_cons_bound (Sys2Proof.encodeEa_length 1 dst.ea)))

theorem Sys2Proof.Laws.EncodeLength.lmsw (src : Sys2Proof.Rm) :
    Sys2Proof.Laws.EncodeLength.Statement (.lmsw src) :=
  fun _ _ _ => Sys2Proof.length_le_eleven (by decide) (Sys2Proof.encode0F_length 0x01 6 src)

theorem Sys2Proof.Laws.EncodeLength.smsw (os : Sys2Proof.Size) (dst : Sys2Proof.Rm) :
    Sys2Proof.Laws.EncodeLength.Statement (.smsw os dst) :=
  fun _ _ _ => Sys2Proof.length_le_eleven (by decide) (Sys2Proof.encode0F_length 0x01 4 dst)

theorem Sys2Proof.Laws.EncodeLength.clts :
    Sys2Proof.Laws.EncodeLength.Statement (.clts) :=
  fun _ _ _ => ⟨Nat.succ_pos _, Nat.le_of_ble_eq_true rfl⟩

theorem Sys2Proof.Laws.EncodeLength.invalid (code : Sys2Proof.BadCode) :
    Sys2Proof.Laws.EncodeLength.Statement (.invalid code) :=
  fun _ _ _ => Sys2Proof.badCode_length code

theorem Sys2Proof.Laws.EncodeLength.x87Escape (op : Sys2Proof.Byte) :
    Sys2Proof.Laws.EncodeLength.Statement (.x87Escape op) :=
  fun _ _ _ => ⟨Nat.succ_pos _, Nat.le_of_ble_eq_true rfl⟩
end

