-- ==== Sys2Proof/Tests/Slice0.lean ====
section
/-! SUPPORT. Tests: ill-formed terms that `wf` refuses, words written out from the spec's encodings with the instructions they
stand for, single steps from the spec's examples, and for each statement with hypotheses a state and operands that meet them. -/

namespace Sys2Proof

open Sys2Proof.Machine

/-! ## Helpers -/

/-- General registers all 0. -/
def Tests.zeros : Regs := ⟨0, 0, 0, 0, 0, 0, 0, 0⟩

/-- The outcome of one step with some code at CS:EIP. -/
def Tests.after (s : State) (code : List Byte) : Host.Outcome State Fault Refusal :=
  step (s.hostBlockWrite (s.linear .cs s.eip) code)

/-- One step with some code at CS:EIP answers a next state with a property. -/
def Tests.runs (s : State) (code : List Byte) (p : State → Bool) : Bool :=
  match Tests.after s code with
  | .next t => p t
  | _ => false

/-- One step with some code at CS:EIP ends with a fault. -/
def Tests.faults (s : State) (code : List Byte) (k : FaultKind) : Bool :=
  match Tests.after s code with
  | .fault f => decide (f = .precise k)
  | _ => false

/-- Some bytes of memory. -/
def Tests.bytes (s : State) (a : Nat) (n : Nat) : List Byte := (List.range n).map fun k => s.byteAt (BitVec.ofNat 32 (a + k))

/-! ## Words written out from the spec's encodings (R210, R250 to R262) -/

/-- Each word, in code of a size after some prefixes, decodes to the instruction beside it, with no byte left. -/
def Tests.decodes (csz : Size) (p : Prefixes) (l : List (List Byte × Instr)) : Bool :=
  l.all fun x => decide (decode csz p x.1 = some (x.2, []))

/-- The prefix bytes (R210). -/
theorem test_decode_prefixes : Tests.decodes .s16 .empty
    [([0x26], .prefixEs), ([0x2E], .prefixCs), ([0x36], .prefixSs), ([0x3E], .prefixDs), ([0x64], .prefixFs),
      ([0x65], .prefixGs), ([0x66], .prefixOpSize), ([0x67], .prefixAddrSize), ([0xF0], .prefixLock), ([0xF2], .prefixRepne),
      ([0xF3], .prefixRep)] = true := by decide

/-- 00 to 3D, the six shapes (R250), 80 to 83 (R252), 84, 85, A8, A9, F6 /0, F7 /1 (R254, R263). -/
theorem test_decode_two_operands : Tests.decodes .s16 .empty
    [([0x00, 0xD8], .add .w8 (.reg .eax) (.rm (.reg .ebx))), ([0x01, 0x07], .add .w16 (.mem ⟨.ds,
      .a16 .bx .none⟩) (.rm (.reg .eax))),
      ([0x0A, 0x4E, 0x80], .or .w8 (.reg .ecx) (.rm (.mem ⟨.ss, .a16 .bp (.byte 0x80)⟩))),
      ([0x13, 0xF7], .adc .w16 (.reg .esi) (.rm (.reg .edi))), ([0x1C, 0x7F], .sbb .w8 (.reg .eax) (.imm 0x7F)),
      ([0x25, 0x34, 0x12], .and .w16 (.reg .eax) (.imm 0x1234)), ([0x29, 0xE5], .sub .w16 (.reg .ebp) (.rm (.reg .esp))),
      ([0x32, 0xE1], .xor .w8 (.reg .esp) (.rm (.reg .ecx))), ([0x3B, 0xC2], .cmp .w16 (.reg .eax) (.rm (.reg .edx))),
      ([0x80, 0xC1, 0x05], .add .w8 (.reg .ecx) (.imm 5)), ([0x81, 0xCA, 0x34, 0x12], .or .w16 (.reg .edx) (.imm 0x1234)),
      ([0x82, 0xE3, 0xF0], .and .w8 (.reg .ebx) (.imm 0xF0)), ([0x83, 0xFB, 0xFE],
      .cmp .w16 (.reg .ebx) (.imm 0xFFFE))] = true := by
  decide

/-- TEST and the one-operand instructions (R250, R254 to R256). -/
theorem test_decode_unary : Tests.decodes .s16 .empty
    [([0x84, 0xC1], .test .w8 (.reg .ecx) (.rm (.reg .eax))), ([0xA9, 0x00, 0x80], .test .w16 (.reg .eax) (.imm 0x8000)),
      ([0xF6, 0xC1, 0x01], .test .w8 (.reg .ecx) (.imm 1)), ([0xF7, 0xC8, 0x02, 0x01], .test .w16 (.reg .eax) (.imm 0x0102)),
      ([0x41], .inc .w16 (.reg .ecx)), ([0xFE, 0x04], .inc .w8 (.mem ⟨.ds, .a16 .si .none⟩)), ([0x4F], .dec .w16 (.reg .edi)),
      ([0xFF, 0x0D], .dec .w16 (.mem ⟨.ds, .a16 .di .none⟩)), ([0xF6, 0xD0], .not .w8 (.reg .eax)), ([0xF7, 0xDB],
      .neg .w16 (.reg .ebx)),
      ([0xF7, 0xE3], .mul .w16 (.reg .ebx)), ([0xF6, 0xEC], .imul .w8 (.reg .esp)), ([0xF6, 0xF3], .div .w8 (.reg .ebx)),
      ([0xF7, 0xFF], .idiv .w16 (.reg .edi))] = true := by decide

/-- IMUL with two and three operands, and the decimal adjustments (R250, R251). -/
theorem test_decode_imul_decimal : Tests.decodes .s16 .empty
    [([0x0F, 0xAF, 0xCA], .imulReg .s16 .ecx (.reg .edx)), ([0x69, 0xC3, 0x00, 0x10], .imulImm .s16 .eax (.reg .ebx) 0x1000),
      ([0x6B, 0xC3, 0xFF], .imulImm .s16 .eax (.reg .ebx) 0xFFFF), ([0x27], .daa), ([0x2F], .das), ([0x37], .aaa), ([0x3F], .aas),
      ([0xD4, 0x0A], .aam 0x0A), ([0xD5, 0x10], .aad 0x10)] = true := by decide

/-- Group 2 with its three counts and its alias /6 (R253, R263), and the double shifts (R251). -/
theorem test_decode_shifts : Tests.decodes .s16 .empty
    [([0xD0, 0xC0], .rol .w8 (.reg .eax) .one), ([0xC1, 0xC9, 0x04], .ror .w16 (.reg .ecx) (.imm 4)), ([0xD2, 0xD3],
      .rcl .w8 (.reg .ebx) .cl),
      ([0xD1, 0xDA], .rcr .w16 (.reg .edx) .one), ([0xD3, 0xE0], .shl .w16 (.reg .eax) .cl), ([0xD0, 0xF0],
      .shl .w8 (.reg .eax) .one),
      ([0xC0, 0xE8, 0x1F], .shr .w8 (.reg .eax) (.imm 31)), ([0xD1, 0xF8], .sar .w16 (.reg .eax) .one),
      ([0x0F, 0xA4, 0xD8, 0x04], .shld .s16 (.reg .eax) .ebx (.imm 4)), ([0x0F, 0xA5, 0xD8], .shld .s16 (.reg .eax) .ebx .cl),
      ([0x0F, 0xAC, 0xD8, 0x04], .shrd .s16 (.reg .eax) .ebx (.imm 4)), ([0x0F, 0xAD, 0xD8], .shrd .s16 (.reg .eax) .ebx .cl)]
    = true := by decide

/-- The bit instructions (R251, R258). -/
theorem test_decode_bits : Tests.decodes .s16 .empty
    [([0x0F, 0xA3, 0xC8], .bt .s16 (.reg .eax) (.reg .ecx)), ([0x0F, 0xBA, 0xE0, 0x03], .bt .s16 (.reg .eax) (.imm 3)),
      ([0x0F, 0xAB, 0xD8], .bts .s16 (.reg .eax) (.reg .ebx)), ([0x0F, 0xBA, 0xE8, 0x0F], .bts .s16 (.reg .eax) (.imm 15)),
      ([0x0F, 0xB3, 0xD8], .btr .s16 (.reg .eax) (.reg .ebx)), ([0x0F, 0xBA, 0xF0, 0x00], .btr .s16 (.reg .eax) (.imm 0)),
      ([0x0F, 0xBB, 0xD8], .btc .s16 (.reg .eax) (.reg .ebx)), ([0x0F, 0xBA, 0xF9, 0x07], .btc .s16 (.reg .ecx) (.imm 7)),
      ([0x0F, 0xBC, 0xC3], .bsf .s16 .eax (.reg .ebx)), ([0x0F, 0xBD, 0xCA], .bsr .s16 .ecx (.reg .edx))] = true := by decide

/-- The moves (R250, R251, R239). -/
theorem test_decode_moves : Tests.decodes .s16 .empty
    [([0x88, 0xC1], .mov .w8 (.reg .ecx) (.rm (.reg .eax))), ([0x8B, 0x1E, 0x34, 0x12], .mov .w16 (.reg .ebx) (.rm (.mem ⟨.ds,
      .a16 .abs (.full 0x1234)⟩))),
      ([0xB4, 0x12], .mov .w8 (.reg .esp) (.imm 0x12)), ([0xBF, 0x34, 0x12], .mov .w16 (.reg .edi) (.imm 0x1234)),
      ([0xC6, 0x07, 0x5A], .mov .w8 (.mem ⟨.ds, .a16 .bx .none⟩) (.imm 0x5A)), ([0xA0, 0x10, 0x00], .movAccMoffs .w8 ⟨.ds,
      .s16, 0x10⟩),
      ([0xA3, 0x34, 0x12], .movMoffsAcc .w16 ⟨.ds, .s16, 0x1234⟩), ([0x8C, 0xD8], .movFromSeg .s16 (.reg .eax) .ds),
      ([0x8E, 0xE3], .movToSeg .fs (.reg .ebx)), ([0x0F, 0x20, 0xD9], .movFromCr .ecx .cr3), ([0x0F, 0x22, 0x20],
      .movToCr .cr4 .eax),
      ([0x86, 0xE0], .xchg .w8 (.reg .eax) .esp), ([0x93], .xchg .w16 (.reg .eax) .ebx),
      ([0x8D, 0x40, 0x04], .lea .s16 .eax (.a16 .bxSi (.byte 4)))] = true := by decide

/-- The extending moves, far-pointer loads, conversions and accumulator moves (R250, R251). -/
theorem test_decode_transfers : Tests.decodes .s16 .empty
    [([0x0F, 0xB6, 0xC3], .movzxByte .s16 .eax (.reg .ebx)), ([0x0F, 0xB7, 0xC3], .movzxWord .s16 .eax (.reg .ebx)),
      ([0x0F, 0xBE, 0xC3], .movsxByte .s16 .eax (.reg .ebx)), ([0x0F, 0xBF, 0xD1], .movsxWord .s16 .edx (.reg .ecx)),
      ([0xC5, 0x36, 0x00, 0x01], .lds .s16 .esi ⟨.ds, .a16 .abs (.full 0x0100)⟩),
      ([0xC4, 0x3E, 0x00, 0x01], .les .s16 .edi ⟨.ds, .a16 .abs (.full 0x0100)⟩),
      ([0x0F, 0xB2, 0x26, 0x00, 0x01], .lss .s16 .esp ⟨.ds, .a16 .abs (.full 0x0100)⟩), ([0x0F, 0xB4, 0x1F],
      .lfs .s16 .ebx ⟨.ds, .a16 .bx .none⟩),
      ([0x0F, 0xB5, 0x1C], .lgs .s16 .ebx ⟨.ds, .a16 .si .none⟩), ([0x98], .cbw .s16), ([0x99], .cwd .s16), ([0x9F], .lahf),
      ([0x9E], .sahf),
      ([0xD7], .xlat .s16 .ds)] = true := by decide

/-- SETcc: 0F 90 + cc, the reg field ignored (R245, R251). -/
theorem test_decode_setcc : Tests.decodes .s16 .empty
    [([0x0F, 0x90, 0xC0], .seto (.reg .eax)), ([0x0F, 0x91, 0xC1], .setno (.reg .ecx)), ([0x0F, 0x92, 0xC2], .setb (.reg .edx)),
      ([0x0F, 0x93, 0xC3], .setae (.reg .ebx)), ([0x0F, 0x94, 0xC4], .sete (.reg .esp)), ([0x0F, 0x95, 0xC5], .setne (.reg .ebp)),
      ([0x0F, 0x96, 0xC6], .setbe (.reg .esi)), ([0x0F, 0x97, 0xC7], .seta (.reg .edi)), ([0x0F, 0x98, 0xF8], .sets (.reg .eax)),
      ([0x0F, 0x99, 0xC0], .setns (.reg .eax)), ([0x0F, 0x9A, 0xC0], .setp (.reg .eax)), ([0x0F, 0x9B, 0xC0], .setnp (.reg .eax)),
      ([0x0F, 0x9C, 0xC0], .setl (.reg .eax)), ([0x0F, 0x9D, 0xC0], .setge (.reg .eax)), ([0x0F, 0x9E, 0xC0], .setle (.reg .eax)),
      ([0x0F, 0x9F, 0x07], .setg (.mem ⟨.ds, .a16 .bx .none⟩))] = true := by decide

/-- The stack instructions (R250, R251, R256, R259). -/
theorem test_decode_stack : Tests.decodes .s16 .empty
    [([0x57], .push .s16 (.reg .edi)), ([0xFF, 0x37], .push .s16 (.mem ⟨.ds, .a16 .bx .none⟩)), ([0x68, 0x34, 0x12],
      .pushImm .s16 0x1234),
      ([0x6A, 0x80], .pushImm .s16 0xFF80), ([0x06], .pushEs .s16), ([0x0E], .pushCs .s16), ([0x16], .pushSs .s16), ([0x1E],
      .pushDs .s16),
      ([0x0F, 0xA0], .pushFs .s16), ([0x0F, 0xA8], .pushGs .s16), ([0x5B], .pop .s16 .ebx), ([0x8F, 0x07],
      .popRm .s16 (.mem ⟨.ds, .a16 .bx .none⟩)),
      ([0x07], .popEs .s16), ([0x17], .popSs .s16), ([0x1F], .popDs .s16), ([0x0F, 0xA1], .popFs .s16), ([0x0F, 0xA9],
      .popGs .s16),
      ([0x60], .pusha .s16), ([0x61], .popa .s16), ([0x9C], .pushf .s16), ([0x9D], .popf), ([0xC8, 0x04, 0x01, 0x02],
      .enter .s16 0x0104 2),
      ([0xC9], .leave .s16)] = true := by decide

/-- The conditional branches: 70 + cc and 0F 80 + cc, and E0 to E3 (R250, R251). -/
theorem test_decode_branches : Tests.decodes .s16 .empty
    [([0x70, 0x10], .jo .s16 (.short 0x10)), ([0x71, 0x10], .jno .s16 (.short 0x10)), ([0x72, 0x10], .jb .s16 (.short 0x10)),
      ([0x73, 0x10], .jae .s16 (.short 0x10)), ([0x74, 0x10], .je .s16 (.short 0x10)), ([0x75, 0xFC], .jne .s16 (.short 0xFC)),
      ([0x76, 0x10], .jbe .s16 (.short 0x10)), ([0x77, 0x10], .ja .s16 (.short 0x10)), ([0x78, 0x10], .js .s16 (.short 0x10)),
      ([0x79, 0x10], .jns .s16 (.short 0x10)), ([0x7A, 0x10], .jp .s16 (.short 0x10)), ([0x7B, 0x10], .jnp .s16 (.short 0x10)),
      ([0x7C, 0x10], .jl .s16 (.short 0x10)), ([0x7D, 0x10], .jge .s16 (.short 0x10)), ([0x7E, 0x10], .jle .s16 (.short 0x10)),
      ([0x0F, 0x8F, 0x00, 0x80], .jg .s16 (.near 0xFFFF8000)), ([0xE0, 0xFC], .loopne .s16 .s16 0xFC), ([0xE1, 0xFC],
      .loope .s16 .s16 0xFC),
      ([0xE2, 0xFC], .loop .s16 .s16 0xFC), ([0xE3, 0x05], .jcxz .s16 .s16 5)] = true := by decide

/-- Jumps, calls, returns and interrupts (R250, R256). -/
theorem test_decode_transfers_of_control : Tests.decodes .s16 .empty
    [([0xEB, 0x80], .jmpRel .s16 (.short 0x80)), ([0xE9, 0xFD, 0xFF], .jmpRel .s16 (.near 0xFFFFFFFD)), ([0xFF, 0xE0],
      .jmpInd .s16 (.reg .eax)),
      ([0xEA, 0x20, 0x00, 0x00, 0x10], .jmpFar .s16 0x20 0x1000), ([0xFF, 0x2F], .jmpFarInd .s16 ⟨.ds, .a16 .bx .none⟩),
      ([0xE8, 0x10, 0x00], .callRel .s16 0x10), ([0xFF, 0xD3], .callInd .s16 (.reg .ebx)), ([0x9A, 0x05, 0x00, 0x00, 0x20],
      .callFar .s16 5 0x2000),
      ([0xFF, 0x1F], .callFarInd .s16 ⟨.ds, .a16 .bx .none⟩), ([0xC3], .ret .s16), ([0xC2, 0x04, 0x00], .retImm .s16 4),
      ([0xCB], .retf .s16),
      ([0xCA, 0x04, 0x00], .retfImm .s16 4), ([0xCD, 0x21], .int 0x21), ([0xCC], .int3), ([0xCE], .into), ([0xCF],
      .iret .s16)] = true := by
  decide

/-- The string instructions, after F3 (R215, R250), or with FS as override after F2. -/
theorem test_decode_strings :
    Tests.decodes .s16 { Prefixes.empty with rep := some .f3 }
      [([0xA4], .movsb .s16 .ds true), ([0xA5], .movsw .s16 .s16 .ds true), ([0xA6], .cmpsb .s16 .ds .repe), ([0xA7],
        .cmpsw .s16 .s16 .ds .repe),
        ([0xAA], .stosb .s16 true), ([0xAB], .stosw .s16 .s16 true), ([0xAC], .lodsb .s16 .ds true), ([0xAD],
        .lodsw .s16 .s16 .ds true),
        ([0xAE], .scasb .s16 .repe), ([0xAF], .scasw .s16 .s16 .repe), ([0x6C], .insb .s16 true), ([0x6D], .insw .s16 .s16 true),
        ([0x6E], .outsb .s16 .ds true), ([0x6F], .outsw .s16 .s16 .ds true)] = true
    ∧ Tests.decodes .s32 { Prefixes.empty with rep := some .f2, seg := some .fs, addrSize := true }
      [([0xA4], .movsb .s16 .fs true), ([0xA7], .cmpsw .s32 .s16 .fs .repne), ([0xAE], .scasb .s16 .repne), ([0xAB],
        .stosw .s32 .s16 true)]
      = true := by decide

/-- Ports, flag control, no-operations and system registers (R250, R251, R257). -/
theorem test_decode_system : Tests.decodes .s16 .empty
    [([0xE4, 0x80], .inImm .w8 0x80), ([0xE5, 0x80], .inImm .w16 0x80), ([0xEC], .inDx .w8), ([0xED], .inDx .w16),
      ([0xE6, 0x60], .outImm .w8 0x60),
      ([0xE7, 0x60], .outImm .w16 0x60), ([0xEE], .outDx .w8), ([0xEF], .outDx .w16), ([0xF8], .clc), ([0xF9], .stc), ([0xF5],
      .cmc), ([0xFA], .cli),
      ([0xFB], .sti), ([0xFC], .cld), ([0xFD], .std), ([0x90], .nop), ([0x9B], .wait), ([0xF4], .hlt), ([0x0F, 0x01, 0x17],
      .lgdt .s16 ⟨.ds, .a16 .bx .none⟩),
      ([0x0F, 0x01, 0x1F], .lidt .s16 ⟨.ds, .a16 .bx .none⟩), ([0x0F, 0x01, 0x07], .sgdt .s16 ⟨.ds, .a16 .bx .none⟩),
      ([0x0F, 0x01, 0x0F], .sidt .s16 ⟨.ds, .a16 .bx .none⟩), ([0x0F, 0x01, 0xF0], .lmsw (.reg .eax)), ([0x0F, 0x01, 0xE0],
      .smsw .s16 (.reg .eax)),
      ([0x0F, 0x06], .clts)] = true := by decide

/-- 32-bit code: ModRM and SIB (R223, R224), 32-bit immediates and far pointers, and POPFD (R384). -/
theorem test_decode_32 : Tests.decodes .s32 .empty
    [([0x8B, 0x04, 0x8B], .mov .w32 (.reg .eax) (.rm (.mem ⟨.ds, .a32 (some .ebx) (some (.ecx, .x4)) .none⟩))),
      ([0x8B, 0x45, 0x08], .mov .w32 (.reg .eax) (.rm (.mem ⟨.ss, .a32 (some .ebp) none (.byte 8)⟩))),
      ([0x8B, 0x04, 0x24], .mov .w32 (.reg .eax) (.rm (.mem ⟨.ss, .a32 (some .esp) none .none⟩))),
      ([0x8B, 0x05, 0x78, 0x56, 0x34, 0x12], .mov .w32 (.reg .eax) (.rm (.mem ⟨.ds, .a32 none none (.full 0x12345678)⟩))),
      ([0x8B, 0x04, 0xED, 0x00, 0x20, 0x00, 0x00],
        .mov .w32 (.reg .eax) (.rm (.mem ⟨.ds, .a32 none (some (.ebp, .x8)) (.full 0x2000)⟩))),
      ([0x05, 0x78, 0x56, 0x34, 0x12], .add .w32 (.reg .eax) (.imm 0x12345678)),
      ([0xEA, 0x78, 0x56, 0x34, 0x12, 0x08, 0x00], .jmpFar .s32 0x12345678 8), ([0x0F, 0x84, 0x00, 0x01, 0x00, 0x00],
      .je .s32 (.near 0x100)),
      ([0x9D], .popfd), ([0xCF], .iret .s32)] = true := by decide

/-- Invalid encodings, decided by their opcode or ModRM byte, with the bytes after it left (R202, R260 to R262). -/
theorem test_decode_invalid :
    decode .s16 .empty [0x62, 0x00] = some (.invalid (.one 0x62), [0x00])
      ∧ decode .s16 .empty [0x0F, 0x0B, 0x00] = some (.invalid (.two 0x0B), [0x00])
      ∧ decode .s16 .empty [0xFE, 0x38, 0x00] = some (.invalid (.oneModRM 0xFE 0x38), [0x00])
      ∧ decode .s16 .empty [0x0F, 0xBA, 0x00, 0x00] = some (.invalid (.twoModRM 0xBA 0x00), [0x00])
      ∧ decode .s16 .empty [0xD8, 0x00] = some (.x87Escape 0xD8, [0x00]) ∧ decode .s16 .empty [0x0F] = none
      ∧ decode .s16 .empty [0x68, 0x34] = none := by decide

/-! ## Ill-formed terms that `wf` refuses -/

/-- Each of some instructions is refused, in 16-bit code with no prefix. -/
def Tests.refusesAll (l : List Instr) : Bool := l.all fun i => !i.wf .s16 .empty

/-- Addresses: a displacement missing under BP, or short under no base; ESP as index; the other address size; a segment no prefix
gives; and the same as the operand of instructions of each shape. -/
theorem test_wf_addresses :
    (Ea.a16 .bp .none).wf = false ∧ (Ea.a16 .abs (.byte 1)).wf = false ∧ (Ea.a32 (some .ebp) none .none).wf = false
      ∧ (Ea.a32 none none (.byte 1)).wf = false ∧ (Ea.a32 (some .eax) (some (.esp, .x1)) .none).wf = false
      ∧ MemRef.wf .s16 .empty ⟨.ds, .a32 (some .eax) none .none⟩ = false ∧ MemRef.wf .s16 .empty ⟨.es, .a16 .bx .none⟩ = false
      ∧ Tests.refusesAll
        [.add .w16 (.mem ⟨.ds, .a16 .bp .none⟩) (.imm 1), .mov .w16 (.reg .eax) (.rm (.mem ⟨.ds, .a16 .abs .none⟩)),
          .not .w8 (.mem ⟨.es, .a16 .bx .none⟩), .imulReg .s16 .eax (.mem ⟨.ds, .a16 .abs .none⟩),
          .imulImm .s16 .eax (.mem ⟨.ds, .a16 .abs .none⟩) 1, .shld .s16 (.mem ⟨.ds, .a16 .abs .none⟩) .eax .cl,
          .movToSeg .ds (.mem ⟨.ds, .a16 .abs .none⟩), .lmsw (.mem ⟨.ds, .a16 .abs .none⟩), .lea .s16 .eax (.a16 .abs .none),
          .lea .s16 .eax (.a32 (some .eax) none .none), .lds .s16 .eax ⟨.ds, .a16 .abs .none⟩, .seto (.mem ⟨.ds,
          .a16 .abs .none⟩)] = true := by
  decide

/-- Widths, sizes and segments that neither code size nor prefixes give. -/
theorem test_wf_sizes : Tests.refusesAll
    [.add .w32 (.reg .eax) (.imm 1), .add .w32 (.reg .eax) (.rm (.reg .eax)), .mov .w32 (.reg .eax) (.rm (.mem ⟨.ds,
      .a16 .bx .none⟩)),
      .inc .w32 (.reg .eax), .movAccMoffs .w32 ⟨.ds, .s16, 0⟩, .movAccMoffs .w8 ⟨.ds, .s32, 0⟩, .movAccMoffs .w8 ⟨.es, .s16, 0⟩,
      .inDx .w32, .bsf .s32 .eax (.reg .eax), .imulImm .s32 .eax (.reg .eax) 1, .shrd .s32 (.reg .eax) .eax .cl,
      .lea .s32 .eax (.a16 .bx .none),
      .les .s32 .eax ⟨.ds, .a16 .bx .none⟩, .cbw .s32, .pushImm .s32 1, .popfd, .jo .s32 (.short 0), .callRel .s32 0,
      .jcxz .s32 .s16 0,
      .jcxz .s16 .s32 0, .jmpFar .s32 0 0, .xlat .s32 .ds,
      .xlat .s16 .es] = true ∧ (Instr.popf).wf .s32 .empty = false := by decide

/-- Immediates, offsets and displacements that do not fit, and two memory operands. -/
theorem test_wf_operands : Tests.refusesAll
    [.add .w8 (.reg .eax) (.imm 0x100), .mov .w16 (.reg .eax) (.imm 0x10000), .imulImm .s16 .eax (.reg .eax) 0x10000,
      .pushImm .s16 0x10000,
      .jmpFar .s16 0x10000 0, .movAccMoffs .w8 ⟨.ds, .s16, 0x10000⟩, .jmpRel .s16 (.near 0x8000), .callRel .s16 0x8000,
      .mov .w8 (.mem ⟨.ds, .a16 .bx .none⟩) (.rm (.mem ⟨.ds, .a16 .bx .none⟩)), .test .w8 (.reg .eax) (.rm (.mem ⟨.ds,
      .a16 .bx .none⟩)),
      .movToSeg .cs (.reg .eax), .shld .s16 (.reg .eax) .eax .one] = true := by decide

/-- Repetitions and sizes of string instructions, and bytes that are not invalid. -/
theorem test_wf_strings_invalid : Tests.refusesAll
    [.movsb .s16 .ds true, .movsb .s16 .es false, .movsb .s32 .ds false, .movsw .s32 .s16 .ds false, .movsw .s16 .s16 .ds true,
      .stosb .s16 true,
      .stosb .s32 false, .stosw .s32 .s16 false, .cmpsb .s16 .ds .repe, .cmpsw .s16 .s16 .es .once, .scasb .s16 .repne,
      .scasw .s16 .s32 .once,
      .invalid (.one 0x90), .invalid (.two 0x06), .invalid (.oneModRM 0xFE 0x00), .invalid (.twoModRM 0xBA 0x20),
      .x87Escape 0xD7] = true := by
  decide


/-! ## Single steps, from the examples of the spec's rules -/

/-- R300's example. -/
theorem test_mov_byte :
  Tests.runs { State.reset with regs := { Tests.zeros with eax := 0x12345678 } } [0xB0, 0xFF] (fun t =>
    t.regs.eax = 0x123456FF ∧ t.eip = 2) = true := by decide

/-- R300, R222: BX = 0x1000, SI = 0x20, MOV AX, [BX+SI+4]. -/
theorem test_mov_mem_word :
  Tests.runs (({ State.reset with regs :=
      { Tests.zeros with eax := 0xFFFF0000, ebx := 0x1000, esi := 0x20 } }).hostBlockWrite 0x1024 [0xEF, 0xBE]) [0x8B, 0x40,
      0x04] (fun t =>
    t.regs.eax = 0xFFFFBEEF ∧ t.eip = 3) = true := by decide

/-- R301's example. -/
theorem test_mov_acc_moffs :
  Tests.runs ((State.reset.setSeg .ds (realSegment .ds 0x1000)).hostBlockWrite 0x10010 [0xEF, 0xBE]) [0xA1, 0x10, 0x00] (fun
      t =>
    t.reg .w16 .eax = 0xBEEF ∧ t.eip = 3) = true := by decide

/-- R301. -/
theorem test_mov_moffs_acc :
  Tests.runs (({ State.reset with regs := { Tests.zeros with eax := 0xBEEF } }).setSeg .ds (realSegment .ds 0x1000))
      [0xA3, 0x10, 0x00] (fun t =>
    Tests.bytes t 0x10010 2 = [0xEF, 0xBE] ∧ t.eip = 3) = true := by decide

/-- R302's example. -/
theorem test_xchg_acc :
  Tests.runs { State.reset with regs := { Tests.zeros with eax := 1, ebx := 2 } } [0x93] (fun t =>
    t.reg .w16 .eax = 2 ∧ t.reg .w16 .ebx = 1) = true := by decide

/-- R302, R54: AL with AH. -/
theorem test_xchg_views :
  Tests.runs { State.reset with regs := { Tests.zeros with eax := 0x1234 } } [0x86, 0xE0] (fun t =>
    t.reg .w16 .eax = 0x3412) = true := by decide

/-- R304's example. -/
theorem test_lea :
  Tests.runs { State.reset with regs := { Tests.zeros with ebx := 0x1000, esi := 0x20 } } [0x8D, 0x40, 0x04] (fun t =>
    t.reg .w16 .eax = 0x1024) = true := by decide

/-- R304: BX - 1 modulo 2^16. -/
theorem test_lea_wraps :
  Tests.runs State.reset [0x8D, 0x47, 0xFF] (fun t =>
    t.reg .w16 .eax = 0xFFFF ∧ t.eip = 3) = true := by decide

/-- R305's example. -/
theorem test_movzx :
  Tests.runs { State.reset with regs := { Tests.zeros with ebx := 0x80 } } [0x0F, 0xB6, 0xC3] (fun t =>
    t.reg .w16 .eax = 0x80) = true := by decide

/-- R309's example. -/
theorem test_movsx :
  Tests.runs { State.reset with regs := { Tests.zeros with ebx := 0x80 } } [0x0F, 0xBE, 0xC3] (fun t =>
    t.reg .w16 .eax = 0xFF80) = true := by decide

/-- R305: OS 16, upper half kept. -/
theorem test_movzx_word :
  Tests.runs { State.reset with regs := { Tests.zeros with eax := 0xFFFFFFFF, ebx := 0x8001 } } [0x0F, 0xB7, 0xC3] (fun t =>
    t.regs.eax = 0xFFFF8001) = true := by decide

/-- R309: MOVSX EAX, BX. -/
theorem test_movsx_word :
  Tests.runs { State.reset with regs := { Tests.zeros with ebx := 0x8001 } } [0x66, 0x0F, 0xBF, 0xC3] (fun t =>
    t.regs.eax = 0xFFFF8001) = true := by decide

/-- R306's example. -/
theorem test_mov_from_seg :
  Tests.runs (State.reset.setSeg .ds (realSegment .ds 0x1234)) [0x8C, 0xD8] (fun t =>
    t.reg .w16 .eax = 0x1234) = true := by decide

/-- R307's example. -/
theorem test_mov_to_seg :
  Tests.runs { State.reset with regs := { Tests.zeros with eax := 0xB800 } } [0x8E, 0xC0] (fun t =>
    t.segs.es.sel = 0xB800 ∧ t.segs.es.desc.base = 0xB8000) = true := by decide

/-- R316's example. -/
theorem test_lds :
  Tests.runs (State.reset.hostBlockWrite 0x100 [0x00, 0x20, 0x00, 0x30]) [0xC5, 0x36, 0x00, 0x01] (fun t =>
    t.reg .w16 .esi = 0x2000 ∧ t.segs.ds.sel = 0x3000) = true := by decide

/-- R317's example. -/
theorem test_les :
  Tests.runs (State.reset.hostBlockWrite 0x100 [0x00, 0x20, 0x00, 0x30]) [0xC4, 0x3E, 0x00, 0x01] (fun t =>
    t.reg .w16 .edi = 0x2000 ∧ t.segs.es.sel = 0x3000) = true := by decide

/-- R318's example. -/
theorem test_lss :
  Tests.runs (State.reset.hostBlockWrite 0x100 [0x00, 0x20, 0x00, 0x30]) [0x0F, 0xB2, 0x26, 0x00, 0x01] (fun t =>
    t.reg .w16 .esp = 0x2000 ∧ t.segs.ss.sel = 0x3000) = true := by decide

/-- R319's example. -/
theorem test_lfs :
  Tests.runs (State.reset.hostBlockWrite 0x100 [0x00, 0x20, 0x00, 0x30]) [0x0F, 0xB4, 0x1E, 0x00, 0x01] (fun t =>
    t.reg .w16 .ebx = 0x2000 ∧ t.segs.fs.sel = 0x3000) = true := by decide

/-- R320's example. -/
theorem test_lgs :
  Tests.runs (State.reset.hostBlockWrite 0x100 [0x00, 0x20, 0x00, 0x30]) [0x0F, 0xB5, 0x1E, 0x00, 0x01] (fun t =>
    t.reg .w16 .ebx = 0x2000 ∧ t.segs.gs.sel = 0x3000) = true := by decide

/-- R310's example. -/
theorem test_cbw :
  Tests.runs { State.reset with regs := { Tests.zeros with eax := 0x80 } } [0x98] (fun t =>
    t.reg .w16 .eax = 0xFF80) = true := by decide

/-- R310: OS 32. -/
theorem test_cwde :
  Tests.runs { State.reset with regs := { Tests.zeros with eax := 0x8000 } } [0x66, 0x98] (fun t =>
    t.regs.eax = 0xFFFF8000) = true := by decide

/-- R311's example. -/
theorem test_cwd :
  Tests.runs { State.reset with regs := { Tests.zeros with eax := 0x8000 } } [0x99] (fun t =>
    t.reg .w16 .edx = 0xFFFF) = true := by decide

/-- R311: OS 32, positive. -/
theorem test_cdq :
  Tests.runs { State.reset with regs := { Tests.zeros with eax := 0x7FFFFFFF, edx := 1 } } [0x66, 0x99] (fun t =>
    t.regs.edx = 0) = true := by decide

/-- R312's example. -/
theorem test_lahf :
  Tests.runs State.reset [0x9F] (fun t =>
    t.reg .w8 .esp = 0x40) = true := by decide

/-- R313's example. -/
theorem test_sahf :
  Tests.runs { State.reset with regs := { Tests.zeros with eax := 0xFF00 } } [0x9E] (fun t =>
    t.flags.sf = true ∧ t.flags.zf = true ∧ t.flags.af = true ∧ t.flags.pf = true ∧ t.flags.cf = true) = true := by decide

/-- R314's example. -/
theorem test_xlat :
  Tests.runs (({ State.reset with regs := { Tests.zeros with ebx := 0x200, eax := 5 } }).hostBlockWrite 0x205 [0x41]) [0xD7]
      (fun t =>
    t.reg .w8 .eax = 0x41) = true := by decide

/-- R315's example. -/
theorem test_sete :
  Tests.runs { State.reset with flags := { resetFlags with zf := true } } [0x0F, 0x94, 0xC0] (fun t =>
    t.reg .w8 .eax = 1) = true := by decide

/-- R315, R245: SF differs from OF. -/
theorem test_setg_false :
  Tests.runs { State.reset with regs :=
      { Tests.zeros with eax := 0xFF }, flags := { resetFlags with zf := false, sf := true, ofl := false } } [0x0F, 0x9F,
      0xC0] (fun t =>
    t.reg .w8 .eax = 0) = true := by decide

/-- R371's example. -/
theorem test_push_reg :
  Tests.runs { State.reset with regs := { Tests.zeros with esp := 0x100, eax := 0xABCD } } [0x50] (fun t =>
    t.reg .w16 .esp = 0xFE ∧ Tests.bytes t 0xFE 2 = [0xCD, 0xAB]) = true := by decide

/-- R371: the stack pointer from before the push. -/
theorem test_push_sp :
  Tests.runs { State.reset with regs := { Tests.zeros with esp := 0x100 } } [0x54] (fun t =>
    Tests.bytes t 0xFE 2 = [0x00, 0x01] ∧ t.reg .w16 .esp = 0xFE) = true := by decide

/-- R372's example. -/
theorem test_push_imm :
  Tests.runs { State.reset with regs := { Tests.zeros with esp := 0x100 } } [0x68, 0x34, 0x12] (fun t =>
    t.reg .w16 .esp = 0xFE ∧ Tests.bytes t 0xFE 2 = [0x34, 0x12]) = true := by decide

/-- R372: PUSH -1 with OS 32. -/
theorem test_push_imm_sext :
  Tests.runs { State.reset with regs := { Tests.zeros with esp := 0x100 } } [0x66, 0x6A, 0xFF] (fun t =>
    t.reg .w16 .esp = 0xFC ∧ Tests.bytes t 0xFC 4 = [0xFF, 0xFF, 0xFF, 0xFF]) = true := by decide

/-- R373's example. -/
theorem test_push_seg :
  Tests.runs (({ State.reset with regs := { Tests.zeros with esp := 0x100 } }).setSeg .ds (realSegment .ds 0x1234)) [0x1E]
      (fun t =>
    t.reg .w16 .esp = 0xFE ∧ Tests.bytes t 0xFE 2 = [0x34, 0x12]) = true := by decide

/-- R374's example. -/
theorem test_pop_reg :
  Tests.runs (({ State.reset with regs := { Tests.zeros with esp := 0xFE } }).hostBlockWrite 0xFE [0xCD, 0xAB]) [0x5B] (fun t =>
    t.reg .w16 .ebx = 0xABCD ∧ t.reg .w16 .esp = 0x100) = true := by decide

/-- R374: the popped value stays. -/
theorem test_pop_sp :
  Tests.runs (({ State.reset with regs := { Tests.zeros with esp := 0xFE } }).hostBlockWrite 0xFE [0x34, 0x12]) [0x5C] (fun t =>
    t.reg .w16 .esp = 0x1234) = true := by decide

/-- R375's example. -/
theorem test_pop_mem :
  Tests.runs (({ State.reset with regs := { Tests.zeros with esp := 0xFE, ebx := 0x300 } }).hostBlockWrite 0xFE [0x55, 0x55])
      [0x8F, 0x07] (fun t =>
    Tests.bytes t 0x300 2 = [0x55, 0x55] ∧ t.reg .w16 .esp = 0x100) = true := by decide

/-- R376's example. -/
theorem test_pop_seg :
  Tests.runs (({ State.reset with regs := { Tests.zeros with esp := 0xFE } }).hostBlockWrite 0xFE [0x00, 0xB8]) [0x07] (fun t =>
    t.segs.es.sel = 0xB800 ∧ t.segs.es.desc.base = 0xB8000 ∧ t.reg .w16 .esp = 0x100) = true := by decide

/-- R380's example. -/
theorem test_pusha :
  Tests.runs { State.reset with regs := { Tests.zeros with esp := 0x100 } } [0x60] (fun t =>
    t.reg .w16 .esp = 0xF0 ∧ Tests.bytes t 0xF0 15 =
      [0x00, 0x00, 0x00, 0x00, 0x00, 0x00, 0x00, 0x01, 0x00, 0x00, 0x00, 0x00, 0x00, 0x00, 0x00]) = true := by decide

/-- R381: the slot of SP is discarded. -/
theorem test_popa :
  Tests.runs (({ State.reset with regs := { Tests.zeros with esp := 0xF0 } }).hostBlockWrite 0xF0
      [0x06, 0x00, 0x05, 0x00, 0x04, 0x00, 0x00, 0xFF, 0x03, 0x00, 0x02, 0x00, 0x01, 0x00, 0x07, 0x00]) [0x61] (fun t =>
    t.reg .w16 .edi = 6 ∧ t.reg .w16 .esi = 5 ∧ t.reg .w16 .ebp = 4 ∧ t.reg .w16 .ebx = 3 ∧ t.reg .w16 .edx = 2 ∧ t.reg .w16
      .ecx = 1 ∧ t.reg .w16 .eax = 7 ∧ t.reg .w16 .esp = 0x100) = true := by decide

/-- R382's example. -/
theorem test_pushf :
  Tests.runs { State.reset with regs := { Tests.zeros with esp := 0x100 } } [0x9C] (fun t =>
    Tests.bytes t 0xFE 2 = [0x40, 0x02] ∧ t.reg .w16 .esp = 0xFE) = true := by decide

/-- R383's example. -/
theorem test_popf :
  Tests.runs (({ State.reset with regs := { Tests.zeros with esp := 0xFE } }).hostBlockWrite 0xFE [0x01, 0x00]) [0x9D] (fun t =>
    t.flags.toWord = 1 ∧ t.reg .w16 .esp = 0x100) = true := by decide

/-- R384's example. -/
theorem test_popfd :
  Tests.runs (({ State.reset with regs := { Tests.zeros with esp := 0xFC } }).hostBlockWrite 0xFC [0x01, 0x00, 0x24, 0x00])
      [0x66, 0x9D] (fun t =>
    t.flags.cf = true ∧ t.flags.ac = true ∧ t.flags.id = true ∧ t.flags.ifl = false ∧ t.reg .w16 .esp = 0x100) = true := by
      decide

/-- R385's example. -/
theorem test_enter :
  Tests.runs { State.reset with regs := { Tests.zeros with esp := 0x1000, ebp := 0x2000 } } [0xC8, 0x04, 0x00, 0x00] (fun t =>
    Tests.bytes t 0xFFE 2 = [0x00, 0x20] ∧ t.reg .w16 .ebp = 0xFFE ∧ t.reg .w16 .esp = 0xFFA) = true := by decide

/-- R385: level 2 copies one old frame slot. -/
theorem test_enter_nested :
  Tests.runs (({ State.reset with regs := { Tests.zeros with esp := 0x1000, ebp := 0x2000 } }).hostBlockWrite 0x1FFE
      [0xAA, 0xAA]) [0xC8, 0x00, 0x00, 0x02] (fun t =>
    Tests.bytes t 0xFFE 2 = [0x00, 0x20] ∧ Tests.bytes t 0xFFC 2 = [0xAA, 0xAA] ∧ Tests.bytes t 0xFFA 2 = [0xFE, 0x0F] ∧
      t.reg .w16 .ebp = 0xFFE ∧ t.reg .w16 .esp = 0xFFA) = true := by decide

/-- R386's example. -/
theorem test_leave :
  Tests.runs (({ State.reset with regs := { Tests.zeros with esp := 0xFFA, ebp := 0xFFE } }).hostBlockWrite 0xFFE
      [0x00, 0x20]) [0xC9] (fun t =>
    t.reg .w16 .esp = 0x1000 ∧ t.reg .w16 .ebp = 0x2000) = true := by decide

/-- R410's first example. -/
theorem test_add :
  Tests.runs { State.reset with regs := { Tests.zeros with eax := 0xFF, ebx := 1 } } [0x00, 0xD8] (fun t =>
    t.reg .w8 .eax = 0 ∧ t.flags.cf = true ∧ t.flags.zf = true ∧ t.flags.pf = true ∧ t.flags.af = true ∧ t.flags.sf = false ∧
      t.flags.ofl = false) = true := by decide

/-- R410's second example. -/
theorem test_add_overflow :
  Tests.runs { State.reset with regs := { Tests.zeros with eax := 1 } } [0x04, 0x7F] (fun t =>
    t.reg .w8 .eax = 0x80 ∧ t.flags.ofl = true ∧ t.flags.sf = true ∧ t.flags.af = true ∧ t.flags.cf = false ∧ t.flags.zf =
      false ∧ t.flags.pf = false) = true := by decide

/-- R411's example. -/
theorem test_adc :
  Tests.runs { State.reset with regs := { Tests.zeros with eax := 0xFFFF }, flags := { resetFlags with cf := true } }
      [0x15, 0x00, 0x00] (fun t =>
    t.reg .w16 .eax = 0 ∧ t.flags.cf = true ∧ t.flags.zf = true ∧ t.flags.af = true ∧ t.flags.pf = true ∧ t.flags.ofl = false
      ∧ t.flags.sf = false) = true := by decide

/-- R412's example. -/
theorem test_sub :
  Tests.runs State.reset [0x2C, 0x01] (fun t =>
    t.reg .w8 .eax = 0xFF ∧ t.flags.cf = true ∧ t.flags.sf = true ∧ t.flags.af = true ∧ t.flags.pf = true ∧ t.flags.zf =
      false ∧ t.flags.ofl = false) = true := by decide

/-- R413's example. -/
theorem test_sbb :
  Tests.runs { State.reset with regs := { Tests.zeros with eax := 0x80 }, flags := { resetFlags with cf := true } }
      [0x1C, 0x00] (fun t =>
    t.reg .w8 .eax = 0x7F ∧ t.flags.ofl = true ∧ t.flags.af = true ∧ t.flags.cf = false ∧ t.flags.sf = false ∧ t.flags.zf =
      false ∧ t.flags.pf = false) = true := by decide

/-- R414's example. -/
theorem test_cmp :
  Tests.runs { State.reset with regs := { Tests.zeros with eax := 5 } } [0x3D, 0x07, 0x00] (fun t =>
    t.reg .w16 .eax = 5 ∧ t.flags.cf = true ∧ t.flags.sf = true ∧ t.flags.af = true ∧ t.flags.zf = false ∧ t.flags.ofl =
      false ∧ t.flags.pf = false) = true := by decide

/-- R415's example. -/
theorem test_inc :
  Tests.runs { State.reset with regs := { Tests.zeros with eax := 0x7F }, flags := { resetFlags with cf := true } }
      [0xFE, 0xC0] (fun t =>
    t.reg .w8 .eax = 0x80 ∧ t.flags.ofl = true ∧ t.flags.sf = true ∧ t.flags.af = true ∧ t.flags.zf = false ∧ t.flags.pf =
      false ∧ t.flags.cf = true) = true := by decide

/-- R416's example. -/
theorem test_dec :
  Tests.runs { State.reset with regs := { Tests.zeros with eax := 1 }, flags := { resetFlags with cf := true } } [0x48] (fun
      t =>
    t.reg .w16 .eax = 0 ∧ t.flags.zf = true ∧ t.flags.pf = true ∧ t.flags.sf = false ∧ t.flags.ofl = false ∧ t.flags.af =
      false ∧ t.flags.cf = true) = true := by decide

/-- R417's example. -/
theorem test_neg :
  Tests.runs { State.reset with regs := { Tests.zeros with eax := 0x80 } } [0xF6, 0xD8] (fun t =>
    t.reg .w8 .eax = 0x80 ∧ t.flags.cf = true ∧ t.flags.ofl = true ∧ t.flags.sf = true ∧ t.flags.af = false ∧ t.flags.zf =
      false ∧ t.flags.pf = false) = true := by decide

/-- R420's example. -/
theorem test_mul :
  Tests.runs { State.reset with regs := { Tests.zeros with eax := 0x80, ebx := 2 } } [0xF6, 0xE3] (fun t =>
    t.reg .w16 .eax = 0x100 ∧ t.flags.cf = true ∧ t.flags.ofl = true) = true := by decide

/-- R420: DX:AX. -/
theorem test_mul_word :
  Tests.runs { State.reset with regs := { Tests.zeros with eax := 0xFFFF, ebx := 0xFFFF } } [0xF7, 0xE3] (fun t =>
    t.reg .w16 .edx = 0xFFFE ∧ t.reg .w16 .eax = 1 ∧ t.flags.cf = true ∧ t.flags.ofl = true) = true := by decide

/-- R421's example. -/
theorem test_imul :
  Tests.runs { State.reset with regs := { Tests.zeros with eax := 0xFF, ebx := 2 } } [0xF6, 0xEB] (fun t =>
    t.reg .w16 .eax = 0xFFFE ∧ t.flags.cf = false ∧ t.flags.ofl = false) = true := by decide

/-- R423's first example. -/
theorem test_imul_imm :
  Tests.runs { State.reset with regs := { Tests.zeros with ebx := 0x1000 } } [0x6B, 0xC3, 0x0A] (fun t =>
    t.reg .w16 .eax = 0xA000 ∧ t.flags.cf = true ∧ t.flags.ofl = true) = true := by decide

/-- R423's second example. -/
theorem test_imul_reg :
  Tests.runs { State.reset with regs := { Tests.zeros with ecx := 3, edx := 0xFFFE } } [0x0F, 0xAF, 0xCA] (fun t =>
    t.reg .w16 .ecx = 0xFFFA ∧ t.flags.cf = false ∧ t.flags.ofl = false) = true := by decide

/-- R424's example. -/
theorem test_div :
  Tests.runs { State.reset with regs := { Tests.zeros with eax := 0x100, ebx := 2 } } [0xF6, 0xF3] (fun t =>
    t.reg .w8 .eax = 0x80 ∧ t.reg .w8 .esp = 0) = true := by decide

/-- R424: the quotient is 0x100. -/
theorem test_div_too_big :
  Tests.faults { State.reset with regs := { Tests.zeros with eax := 0x200, ebx := 2 } } [0xF6, 0xF3] (.divisionError) = true
      := by decide

/-- R425's example. -/
theorem test_idiv :
  Tests.runs { State.reset with regs := { Tests.zeros with eax := 0xFFF9, ebx := 2 } } [0xF6, 0xFB] (fun t =>
    t.reg .w8 .eax = 0xFD ∧ t.reg .w8 .esp = 0xFF) = true := by decide

/-- R425: the quotient is +128. -/
theorem test_idiv_too_big :
  Tests.faults { State.reset with regs := { Tests.zeros with eax := 0xFF80, ebx := 0xFF } } [0xF6, 0xFB] (.divisionError) =
      true := by decide

/-- R440's example. -/
theorem test_daa :
  Tests.runs { State.reset with regs :=
      { Tests.zeros with eax := 0xAE }, flags := { resetFlags with af := false, cf := false } } [0x27] (fun t =>
    t.reg .w8 .eax = 0x14 ∧ t.flags.cf = true ∧ t.flags.af = true) = true := by decide

/-- R441's example. -/
theorem test_das :
  Tests.runs { State.reset with regs :=
      { Tests.zeros with eax := 0xEE }, flags := { resetFlags with af := true, cf := true } } [0x2F] (fun t =>
    t.reg .w8 .eax = 0x88 ∧ t.flags.cf = true ∧ t.flags.af = true) = true := by decide

/-- R442's example. -/
theorem test_aaa :
  Tests.runs { State.reset with regs := { Tests.zeros with eax := 0xE }, flags := { resetFlags with af := false } } [0x37]
      (fun t =>
    t.reg .w16 .eax = 0x104 ∧ t.flags.af = true ∧ t.flags.cf = true) = true := by decide

/-- R443's example. -/
theorem test_aas :
  Tests.runs { State.reset with regs := { Tests.zeros with eax := 0x1FD }, flags := { resetFlags with af := true } } [0x3F]
      (fun t =>
    t.reg .w16 .eax = 7 ∧ t.flags.af = true ∧ t.flags.cf = true) = true := by decide

/-- R444's example. -/
theorem test_aam :
  Tests.runs { State.reset with regs := { Tests.zeros with eax := 0x3F } } [0xD4, 0x0A] (fun t =>
    t.reg .w16 .eax = 0x603 ∧ t.flags.zf = false ∧ t.flags.sf = false ∧ t.flags.pf = true) = true := by decide

/-- R444, R701: base 0. -/
theorem test_aam_zero :
  Tests.faults { State.reset with regs := { Tests.zeros with eax := 0x3F } } [0xD4, 0x00] (.divisionError) = true := by decide

/-- R445's example. -/
theorem test_aad :
  Tests.runs { State.reset with regs := { Tests.zeros with eax := 0x603 } } [0xD5, 0x0A] (fun t =>
    t.reg .w16 .eax = 0x3F ∧ t.flags.zf = false ∧ t.flags.sf = false ∧ t.flags.pf = true) = true := by decide

/-- R460's example. -/
theorem test_and :
  Tests.runs { State.reset with regs := { Tests.zeros with eax := 0x3C } } [0x24, 0xF0] (fun t =>
    t.reg .w8 .eax = 0x30 ∧ t.flags.pf = true ∧ t.flags.zf = false ∧ t.flags.sf = false ∧ t.flags.cf = false ∧ t.flags.ofl =
      false) = true := by decide

/-- R461's example. -/
theorem test_or :
  Tests.runs State.reset [0x0C, 0x80] (fun t =>
    t.reg .w8 .eax = 0x80 ∧ t.flags.sf = true ∧ t.flags.pf = false ∧ t.flags.zf = false ∧ t.flags.cf = false ∧ t.flags.ofl =
      false) = true := by decide

/-- R462's example. -/
theorem test_xor :
  Tests.runs { State.reset with regs := { Tests.zeros with eax := 0x1234 } } [0x31, 0xC0] (fun t =>
    t.reg .w16 .eax = 0 ∧ t.flags.zf = true ∧ t.flags.pf = true ∧ t.flags.sf = false ∧ t.flags.cf = false ∧ t.flags.ofl =
      false) = true := by decide

/-- R463's example. -/
theorem test_not :
  Tests.runs { State.reset with regs := { Tests.zeros with eax := 0xF } } [0xF6, 0xD0] (fun t =>
    t.reg .w8 .eax = 0xF0 ∧ t.flags.toWord = 0x240) = true := by decide

/-- R464's example. -/
theorem test_test :
  Tests.runs { State.reset with regs := { Tests.zeros with eax := 2 } } [0xA8, 0x01] (fun t =>
    t.flags.zf = true ∧ t.flags.pf = true ∧ t.flags.sf = false ∧ t.flags.cf = false ∧ t.flags.ofl = false ∧ t.reg .w8 .eax =
      2) = true := by decide

/-- R471's example. -/
theorem test_rol :
  Tests.runs { State.reset with regs := { Tests.zeros with eax := 0x81 } } [0xD0, 0xC0] (fun t =>
    t.reg .w8 .eax = 3 ∧ t.flags.cf = true ∧ t.flags.ofl = true) = true := by decide

/-- R472's example. -/
theorem test_ror :
  Tests.runs { State.reset with regs := { Tests.zeros with eax := 1 } } [0xD0, 0xC8] (fun t =>
    t.reg .w8 .eax = 0x80 ∧ t.flags.cf = true ∧ t.flags.ofl = true) = true := by decide

/-- R473's first example. -/
theorem test_rcl :
  Tests.runs { State.reset with regs := { Tests.zeros with eax := 0x80 }, flags := { resetFlags with cf := false } }
      [0xD0, 0xD0] (fun t =>
    t.reg .w8 .eax = 0 ∧ t.flags.cf = true ∧ t.flags.ofl = true) = true := by decide

/-- R473's second example. -/
theorem test_rcl_whole_turn :
  Tests.runs { State.reset with regs := { Tests.zeros with eax := 0x5A }, flags := { resetFlags with cf := true } }
      [0xC0, 0xD0, 0x09] (fun t =>
    t.reg .w8 .eax = 0x5A ∧ t.flags.cf = true) = true := by decide

/-- R474's example. -/
theorem test_rcr :
  Tests.runs { State.reset with regs := { Tests.zeros with eax := 1 }, flags := { resetFlags with cf := true } } [0xD0, 0xD8]
      (fun t =>
    t.reg .w8 .eax = 0x80 ∧ t.flags.cf = true ∧ t.flags.ofl = true) = true := by decide

/-- R475's first example. -/
theorem test_shl :
  Tests.runs { State.reset with regs := { Tests.zeros with eax := 0xC0 } } [0xD0, 0xE0] (fun t =>
    t.reg .w8 .eax = 0x80 ∧ t.flags.cf = true ∧ t.flags.ofl = false ∧ t.flags.sf = true ∧ t.flags.zf = false ∧ t.flags.pf =
      false) = true := by decide

/-- R475's second example: the count modulo 32. -/
theorem test_shl_count :
  Tests.runs { State.reset with regs := { Tests.zeros with eax := 0x4000, ecx := 0x21 } } [0xD3, 0xE0] (fun t =>
    t.reg .w16 .eax = 0x8000 ∧ t.flags.cf = false ∧ t.flags.ofl = true) = true := by decide

/-- R476's example. -/
theorem test_shr :
  Tests.runs { State.reset with regs := { Tests.zeros with eax := 0x81 } } [0xD0, 0xE8] (fun t =>
    t.reg .w8 .eax = 0x40 ∧ t.flags.cf = true ∧ t.flags.ofl = true ∧ t.flags.sf = false ∧ t.flags.zf = false ∧ t.flags.pf =
      false) = true := by decide

/-- R477's example. -/
theorem test_sar :
  Tests.runs { State.reset with regs := { Tests.zeros with eax := 0x81 } } [0xD0, 0xF8] (fun t =>
    t.reg .w8 .eax = 0xC0 ∧ t.flags.cf = true ∧ t.flags.ofl = false ∧ t.flags.sf = true ∧ t.flags.zf = false ∧ t.flags.pf =
      true) = true := by decide

/-- R480's example. -/
theorem test_shld :
  Tests.runs { State.reset with regs := { Tests.zeros with eax := 0x1234, ebx := 0xABCD } } [0x0F, 0xA4, 0xD8, 0x04] (fun t =>
    t.reg .w16 .eax = 0x234A ∧ t.flags.cf = true ∧ t.flags.sf = false ∧ t.flags.zf = false ∧ t.flags.pf = false) = true := by
      decide

/-- R481's example. -/
theorem test_shrd :
  Tests.runs { State.reset with regs := { Tests.zeros with eax := 0x1234, ebx := 0xABCD } } [0x0F, 0xAC, 0xD8, 0x04] (fun t =>
    t.reg .w16 .eax = 0xD123 ∧ t.flags.cf = false ∧ t.flags.sf = true ∧ t.flags.zf = false ∧ t.flags.pf = false) = true := by
      decide

/-- R490's example. -/
theorem test_bt :
  Tests.runs { State.reset with regs := { Tests.zeros with eax := 8 } } [0x0F, 0xBA, 0xE0, 0x03] (fun t =>
    t.flags.cf = true ∧ t.reg .w16 .eax = 8) = true := by decide

/-- R489: bit offset -1 is bit 15 of the word before. -/
theorem test_bt_memory :
  Tests.runs (({ State.reset with regs := { Tests.zeros with ebx := 0x100, eax := 0xFFFF } }).hostBlockWrite 0xFE
      [0x00, 0x80]) [0x0F, 0xA3, 0x07] (fun t =>
    t.flags.cf = true) = true := by decide

/-- R491's example. -/
theorem test_bts :
  Tests.runs { State.reset with regs := { Tests.zeros with ebx := 0x11 } } [0x0F, 0xAB, 0xD8] (fun t =>
    t.reg .w16 .eax = 2 ∧ t.flags.cf = false) = true := by decide

/-- R492's example. -/
theorem test_btr :
  Tests.runs { State.reset with regs := { Tests.zeros with eax := 0xFFFF } } [0x0F, 0xB3, 0xD8] (fun t =>
    t.reg .w16 .eax = 0xFFFE ∧ t.flags.cf = true) = true := by decide

/-- R493's example. -/
theorem test_btc :
  Tests.runs { State.reset with regs := { Tests.zeros with ebx := 0xF } } [0x0F, 0xBB, 0xD8] (fun t =>
    t.reg .w16 .eax = 0x8000 ∧ t.flags.cf = false) = true := by decide

/-- R494's example. -/
theorem test_bsf :
  Tests.runs { State.reset with regs := { Tests.zeros with ebx := 0x18 } } [0x0F, 0xBC, 0xC3] (fun t =>
    t.reg .w16 .eax = 3 ∧ t.flags.zf = false) = true := by decide

/-- R495's example. -/
theorem test_bsr :
  Tests.runs { State.reset with regs := { Tests.zeros with ebx := 0x18 } } [0x0F, 0xBD, 0xC3] (fun t =>
    t.reg .w16 .eax = 4 ∧ t.flags.zf = false) = true := by decide

/-- R521's first example. -/
theorem test_je_short :
  Tests.runs { State.reset with eip := 0x100, flags := { resetFlags with zf := true } } [0x74, 0x10] (fun t =>
    t.eip = 0x112) = true := by decide

/-- R521's second example. -/
theorem test_jne_short :
  Tests.runs { State.reset with eip := 0x100, flags := { resetFlags with zf := false } } [0x75, 0xFC] (fun t =>
    t.eip = 0xFE) = true := by decide

/-- R522's example. -/
theorem test_je_near :
  Tests.runs { State.reset with eip := 0x100, flags := { resetFlags with zf := true } } [0x0F, 0x84, 0x00, 0x10] (fun t =>
    t.eip = 0x1104) = true := by decide

/-- R245: SF equals OF. -/
theorem test_jl_not_taken :
  Tests.runs { State.reset with eip := 0x100, flags := { resetFlags with sf := true, ofl := true } } [0x7C, 0x10] (fun t =>
    t.eip = 0x102) = true := by decide

/-- R523's example. -/
theorem test_jcxz :
  Tests.runs { State.reset with eip := 0x100 } [0xE3, 0x05] (fun t =>
    t.eip = 0x107) = true := by decide

/-- R523: CX is 1. -/
theorem test_jcxz_not_taken :
  Tests.runs { State.reset with regs := { Tests.zeros with ecx := 1 }, eip := 0x100 } [0xE3, 0x05] (fun t =>
    t.eip = 0x102) = true := by decide

/-- R524's example. -/
theorem test_loop :
  Tests.runs { State.reset with regs := { Tests.zeros with ecx := 5 }, eip := 0x105 } [0xE2, 0xFC] (fun t =>
    t.reg .w16 .ecx = 4 ∧ t.eip = 0x103) = true := by decide

/-- R524: ends by ZF. -/
theorem test_loope :
  Tests.runs { State.reset with regs :=
      { Tests.zeros with ecx := 2 }, eip := 0x105, flags := { resetFlags with zf := false } } [0xE1, 0xFC] (fun t =>
    t.reg .w16 .ecx = 1 ∧ t.eip = 0x107) = true := by decide

/-- R524: CX wraps below 0. -/
theorem test_loopne :
  Tests.runs { State.reset with eip := 0x105, flags := { resetFlags with zf := false } } [0xE0, 0xFC] (fun t =>
    t.reg .w16 .ecx = 0xFFFF ∧ t.eip = 0x103) = true := by decide

/-- R525's example. -/
theorem test_jmp_near :
  Tests.runs { State.reset with eip := 0x100 } [0xE9, 0xFD, 0xFF] (fun t =>
    t.eip = 0x100) = true := by decide

/-- R526's example. -/
theorem test_jmp_indirect :
  Tests.runs { State.reset with regs := { Tests.zeros with eax := 0x2000 } } [0xFF, 0xE0] (fun t =>
    t.eip = 0x2000) = true := by decide

/-- R527's example. -/
theorem test_jmp_far :
  Tests.runs State.reset [0xEA, 0x20, 0x00, 0x00, 0x10] (fun t =>
    t.segs.cs.sel = 0x1000 ∧ t.segs.cs.desc.base = 0x10000 ∧ t.eip = 0x20) = true := by decide

/-- R528's example. -/
theorem test_jmp_far_indirect :
  Tests.runs (({ State.reset with regs := { Tests.zeros with ebx := 0x100 } }).hostBlockWrite 0x100 [0x34, 0x12, 0x00, 0xF0])
      [0xFF, 0x2F] (fun t =>
    t.segs.cs.sel = 0xF000 ∧ t.eip = 0x1234) = true := by decide

/-- R530's example. -/
theorem test_call_near :
  Tests.runs { State.reset with regs := { Tests.zeros with esp := 0x200 }, eip := 0x100 } [0xE8, 0x10, 0x00] (fun t =>
    Tests.bytes t 0x1FE 2 = [0x03, 0x01] ∧ t.reg .w16 .esp = 0x1FE ∧ t.eip = 0x113) = true := by decide

/-- R531's example. -/
theorem test_call_indirect :
  Tests.runs { State.reset with regs := { Tests.zeros with ebx := 0x400, esp := 0x200 }, eip := 0x100 } [0xFF, 0xD3] (fun t =>
    Tests.bytes t 0x1FE 2 = [0x02, 0x01] ∧ t.eip = 0x400) = true := by decide

/-- R532's example. -/
theorem test_call_far :
  Tests.runs (({ State.reset with regs := { Tests.zeros with esp := 0x200 }, eip := 0x100 }).setSeg .cs (realSegment .cs
      0x1000)) [0x9A, 0x00, 0x00, 0x00, 0x20] (fun t =>
    Tests.bytes t 0x1FC 4 = [0x05, 0x01, 0x00, 0x10] ∧ t.reg .w16 .esp = 0x1FC ∧ t.segs.cs.sel = 0x2000 ∧ t.eip = 0) = true
      := by decide

/-- R533's example. -/
theorem test_call_far_indirect :
  Tests.runs ((({ State.reset with regs := { Tests.zeros with ebx := 0x100, esp := 0x200 }, eip := 0x100 }).hostBlockWrite
      0x100 [0x00, 0x00, 0x00, 0x20]).setSeg .cs (realSegment .cs 0x1000)) [0xFF, 0x1F] (fun t =>
    Tests.bytes t 0x1FC 4 = [0x02, 0x01, 0x00, 0x10] ∧ t.segs.cs.sel = 0x2000 ∧ t.eip = 0) = true := by decide

/-- R534's first example. -/
theorem test_ret :
  Tests.runs (({ State.reset with regs := { Tests.zeros with esp := 0x1FE } }).hostBlockWrite 0x1FE [0x03, 0x01]) [0xC3] (fun
      t =>
    t.eip = 0x103 ∧ t.reg .w16 .esp = 0x200) = true := by decide

/-- R534's second example. -/
theorem test_ret_imm :
  Tests.runs (({ State.reset with regs := { Tests.zeros with esp := 0x1FE } }).hostBlockWrite 0x1FE [0x03, 0x01])
      [0xC2, 0x04, 0x00] (fun t =>
    t.eip = 0x103 ∧ t.reg .w16 .esp = 0x204) = true := by decide

/-- R535's example. -/
theorem test_retf :
  Tests.runs ((({ State.reset with regs := { Tests.zeros with esp := 0x1FC } }).setSeg .cs (realSegment .cs
      0x2000)).hostBlockWrite 0x1FC [0x05, 0x01, 0x00, 0x10]) [0xCB] (fun t =>
    t.eip = 0x105 ∧ t.segs.cs.sel = 0x1000 ∧ t.reg .w16 .esp = 0x200) = true := by decide

/-- R535: the bytes of the immediate are released too. -/
theorem test_retf_imm :
  Tests.runs (({ State.reset with regs := { Tests.zeros with esp := 0x1FC } }).hostBlockWrite 0x1FC [0x05, 0x01, 0x00, 0x10])
      [0xCA, 0x04, 0x00] (fun t =>
    t.eip = 0x105 ∧ t.segs.cs.sel = 0x1000 ∧ t.reg .w16 .esp = 0x204) = true := by decide

/-- R540's example. -/
theorem test_int :
  Tests.runs ((({ State.reset with regs :=
      { Tests.zeros with esp := 0x200 }, eip := 0x100, flags := { resetFlags with cf := true }
      }).setSeg .cs (realSegment .cs 0x1000)).hostBlockWrite 0x84 [0x00, 0x30, 0x00, 0x20]) [0xCD, 0x21] (fun t =>
    Tests.bytes t 0x1FA 6 = [0x02, 0x01, 0x00, 0x10, 0x41, 0x02] ∧ t.reg .w16 .esp = 0x1FA ∧ t.flags.toWord = 0x41 ∧
      t.segs.cs.sel = 0x2000 ∧ t.eip = 0x3000 ∧ t.intDepth = 1) = true := by decide

/-- R541's example. -/
theorem test_int3 :
  Tests.runs ((({ State.reset with regs := { Tests.zeros with esp := 0x200 }, eip := 0x100 }).setSeg .cs (realSegment .cs
      0x1000)).hostBlockWrite 0xC [0x00, 0x30, 0x00, 0x20]) [0xCC] (fun t =>
    Tests.bytes t 0x1FA 6 = [0x01, 0x01, 0x00, 0x10, 0x40, 0x02] ∧ t.segs.cs.sel = 0x2000 ∧ t.eip = 0x3000) = true := by decide

/-- R542's example. -/
theorem test_into_clear :
  Tests.runs { State.reset with eip := 0x100 } [0xCE] (fun t =>
    t.eip = 0x101 ∧ t.intDepth = 0) = true := by decide

/-- R542 with OF = 1, and R722. -/
theorem test_into_set :
  Tests.runs (({ State.reset with regs :=
      { Tests.zeros with esp := 0x200 }, eip := 0x100, flags := { resetFlags with ofl := true } }).hostBlockWrite 0x10 [0x00,
      0x05, 0x00, 0x00]) [0xCE] (fun t =>
    Tests.bytes t 0x1FA 6 = [0x01, 0x01, 0x00, 0x00, 0x40, 0x0A] ∧ t.flags.toWord = 0x840 ∧ t.eip = 0x500 ∧ t.intDepth = 1) =
      true := by decide

/-- R560's example. -/
theorem test_iret :
  Tests.runs ((({ State.reset with regs := { Tests.zeros with esp := 0x1FA } }).setSeg .cs (realSegment .cs
      0x2000)).hostBlockWrite 0x1FA [0x02, 0x01, 0x00, 0x10, 0x41, 0x02]) [0xCF] (fun t =>
    t.eip = 0x102 ∧ t.segs.cs.sel = 0x1000 ∧ t.flags.toWord = 0x241 ∧ t.reg .w16 .esp = 0x200) = true := by decide

/-- R584's example. -/
theorem test_rep_movsb :
  Tests.runs (({ State.reset with regs := { Tests.zeros with esi := 0x100, edi := 0x200, ecx := 3 } }).hostBlockWrite 0x100
      [0x41, 0x42, 0x43]) [0xF3, 0xA4] (fun t =>
    Tests.bytes t 0x200 3 = [0x41, 0x42, 0x43] ∧ t.reg .w16 .esi = 0x103 ∧ t.reg .w16 .edi = 0x203 ∧ t.reg .w16 .ecx = 0 ∧
      t.eip = 2) = true := by decide

/-- R584, R582: DF = 1. -/
theorem test_movsw_down :
  Tests.runs (({ State.reset with regs :=
      { Tests.zeros with esi := 0x100, edi := 0x200 }, flags := { resetFlags with df := true } }).hostBlockWrite 0x100 [0x41,
      0x42]) [0xA5] (fun t =>
    Tests.bytes t 0x200 2 = [0x41, 0x42] ∧ t.reg .w16 .esi = 0xFE ∧ t.reg .w16 .edi = 0x1FE) = true := by decide

/-- R585's example. -/
theorem test_repe_cmpsb :
  Tests.runs ((({ State.reset with regs := { Tests.zeros with esi := 0x100, edi := 0x200, ecx := 3 } }).hostBlockWrite 0x100
      [0x41, 0x42, 0x43]).hostBlockWrite 0x200 [0x41, 0x58, 0x43]) [0xF3, 0xA6] (fun t =>
    t.flags.zf = false ∧ t.flags.cf = true ∧ t.flags.sf = true ∧ t.reg .w16 .ecx = 1 ∧ t.reg .w16 .esi = 0x102 ∧ t.reg .w16
      .edi = 0x202) = true := by decide

/-- R585: source minus destination. -/
theorem test_cmpsw :
  Tests.runs ((({ State.reset with regs := { Tests.zeros with esi := 0x100, edi := 0x200 } }).hostBlockWrite 0x100
      [0x01, 0x00]).hostBlockWrite 0x200 [0x02, 0x00]) [0xA7] (fun t =>
    t.flags.cf = true ∧ t.reg .w16 .esi = 0x102 ∧ t.reg .w16 .edi = 0x202) = true := by decide

/-- R586's example. -/
theorem test_stosw :
  Tests.runs { State.reset with regs :=
      { Tests.zeros with edi := 0x200, eax := 0xABCD }, flags := { resetFlags with df := true } } [0xAB] (fun t =>
    Tests.bytes t 0x200 2 = [0xCD, 0xAB] ∧ t.reg .w16 .edi = 0x1FE) = true := by decide

/-- R580: count 0. -/
theorem test_rep_stosb_none :
  Tests.runs { State.reset with regs := { Tests.zeros with edi := 0x200, eax := 0x41 } } [0xF3, 0xAA] (fun t =>
    Tests.bytes t 0x200 1 = [0x00] ∧ t.reg .w16 .edi = 0x200 ∧ t.eip = 2) = true := by decide

/-- R587's example. -/
theorem test_lodsb :
  Tests.runs (({ State.reset with regs := { Tests.zeros with esi := 0x100 } }).hostBlockWrite 0x100 [0x41]) [0xAC] (fun t =>
    t.reg .w8 .eax = 0x41 ∧ t.reg .w16 .esi = 0x101) = true := by decide

/-- R587. -/
theorem test_lodsw :
  Tests.runs (({ State.reset with regs := { Tests.zeros with esi := 0x100 } }).hostBlockWrite 0x100 [0x41, 0x42]) [0xAD] (fun
      t =>
    t.reg .w16 .eax = 0x4241 ∧ t.reg .w16 .esi = 0x102) = true := by decide

/-- R588's example, with CX = 4. -/
theorem test_repne_scasb :
  Tests.runs (({ State.reset with regs := { Tests.zeros with edi := 0x300, ecx := 4 } }).hostBlockWrite 0x300
      [0x61, 0x62, 0x00]) [0xF2, 0xAE] (fun t =>
    t.flags.zf = true ∧ t.reg .w16 .ecx = 1 ∧ t.reg .w16 .edi = 0x303) = true := by decide

/-- R588. -/
theorem test_scasw :
  Tests.runs (({ State.reset with regs := { Tests.zeros with edi := 0x300, eax := 0x6261 } }).hostBlockWrite 0x300
      [0x61, 0x62]) [0xAF] (fun t =>
    t.flags.zf = true ∧ t.reg .w16 .edi = 0x302) = true := by decide

/-- R590's example. -/
theorem test_insb :
  Tests.runs { State.reset with regs := { Tests.zeros with edi := 0x400, edx := 0x60 } } [0x6C] (fun t =>
    Tests.bytes t 0x400 1 = [0xFF] ∧ t.reg .w16 .edi = 0x401) = true := by decide

/-- R590, R173. -/
theorem test_insw :
  Tests.runs { State.reset with regs := { Tests.zeros with edi := 0x400, edx := 0x60 } } [0x6D] (fun t =>
    Tests.bytes t 0x400 2 = [0xFF, 0xFF] ∧ t.reg .w16 .edi = 0x402) = true := by decide

/-- R591's example. -/
theorem test_outsb :
  Tests.runs ((({ State.reset with regs := { Tests.zeros with esi := 0x100, edx := 0x3F8 } }).hostBlockWrite 0x100
      [0x41]).registerPorts [0x3F8, 0x3F9] 7) [0x6E] (fun t =>
    t.reg .w16 .esi = 0x101 ∧ t.ioLog = [.write 7 0x3F8 .w8 0x41]) = true := by decide

/-- R591: an unmapped port drops the write. -/
theorem test_outsw :
  Tests.runs (({ State.reset with regs := { Tests.zeros with esi := 0x100, edx := 0x3F8 } }).hostBlockWrite 0x100
      [0x41, 0x42]) [0x6F] (fun t =>
    t.reg .w16 .esi = 0x102 ∧ t.ioLog = []) = true := by decide

/-- R620's example. -/
theorem test_in_imm :
  Tests.runs State.reset [0xE4, 0x80] (fun t =>
    t.reg .w8 .eax = 0xFF) = true := by decide

/-- R621's example, the write. -/
theorem test_out_imm :
  Tests.runs (({ State.reset with regs := { Tests.zeros with eax := 0x5A } }).registerPorts [0x60] 2) [0xE6, 0x60] (fun t =>
    t.ioLog = [.write 2 0x60 .w8 0x5A]) = true := by decide

/-- R622's example. -/
theorem test_in_dx :
  Tests.runs { State.reset with regs := { Tests.zeros with edx := 0x3F8 } } [0x66, 0xED] (fun t =>
    t.regs.eax = 0xFFFF) = true := by decide

/-- R623's example. -/
theorem test_out_dx :
  Tests.runs (({ State.reset with regs := { Tests.zeros with edx := 0x20, eax := 0x20 } }).registerPorts [0x20] 1) [0xEE] (fun t =>
    t.ioLog = [.write 1 0x20 .w8 0x20]) = true := by decide

/-- R630's example. -/
theorem test_clc :
  Tests.runs { State.reset with flags := { resetFlags with cf := true } } [0xF8] (fun t =>
    t.flags.cf = false) = true := by decide

/-- R631's example. -/
theorem test_stc :
  Tests.runs { State.reset with flags := { resetFlags with cf := false } } [0xF9] (fun t =>
    t.flags.cf = true) = true := by decide

/-- R632's example. -/
theorem test_cmc :
  Tests.runs { State.reset with flags := { resetFlags with cf := true } } [0xF5] (fun t =>
    t.flags.cf = false) = true := by decide

/-- R633's example. -/
theorem test_cli :
  Tests.runs State.reset [0xFA] (fun t =>
    t.flags.toWord = 0x40) = true := by decide

/-- R634's example. -/
theorem test_sti :
  Tests.runs { State.reset with flags := { resetFlags with ifl := false } } [0xFB] (fun t =>
    t.flags.toWord = 0x240) = true := by decide

/-- R635's example. -/
theorem test_cld :
  Tests.runs { State.reset with flags := { resetFlags with df := true } } [0xFC] (fun t =>
    t.flags.df = false) = true := by decide

/-- R636's example. -/
theorem test_std :
  Tests.runs { State.reset with flags := { resetFlags with df := false } } [0xFD] (fun t =>
    t.flags.df = true) = true := by decide

/-- R637's example. -/
theorem test_nop :
  Tests.runs { State.reset with eip := 0x100 } [0x90] (fun t =>
    t.eip = 0x101) = true := by decide

/-- R638's example. -/
theorem test_wait :
  Tests.runs State.reset [0x9B] (fun t =>
    t.eip = 1) = true := by decide

/-- R640's example. -/
theorem test_hlt :
  Tests.runs { State.reset with eip := 0x100 } [0xF4] (fun t =>
    t.eip = 0x101 ∧ t.halted = true) = true := by decide

/-- R640, R704: IF = 0. -/
theorem test_hlt_masked :
  Tests.faults { State.reset with flags := { resetFlags with ifl := false } } [0xF4] (.haltWithInterruptsDisabled) = true :=
      by decide

/-- R650's example: the mode is not sampled yet. -/
theorem test_mov_to_cr :
  Tests.runs { State.reset with regs := { Tests.zeros with eax := 1 } } [0x0F, 0x22, 0xC0] (fun t =>
    t.cr.cr0 = 1 ∧ t.mode = .real) = true := by decide

/-- R651's example. -/
theorem test_mov_from_cr :
  Tests.runs { State.reset with cr := ⟨0x11, 0, 0, 0, 0⟩ } [0x0F, 0x20, 0xC0] (fun t =>
    t.regs.eax = 0x11) = true := by decide

/-- R655's example. -/
theorem test_lgdt :
  Tests.runs (State.reset.hostBlockWrite 0x500 [0x17, 0x00, 0x00, 0x10, 0x00, 0x00]) [0x0F, 0x01, 0x16, 0x00, 0x05] (fun t =>
    t.gdtr.base = 0x1000 ∧ t.gdtr.limit = 0x17) = true := by decide

/-- R656's example. -/
theorem test_lidt :
  Tests.runs (State.reset.hostBlockWrite 0x500 [0x17, 0x00, 0x00, 0x10, 0x00, 0x00]) [0x0F, 0x01, 0x1E, 0x00, 0x05] (fun t =>
    t.idtr.base = 0x1000 ∧ t.idtr.limit = 0x17) = true := by decide

/-- R657's example. -/
theorem test_sgdt :
  Tests.runs { State.reset with gdtr := ⟨0x1000, 0x17⟩ } [0x0F, 0x01, 0x06, 0x00, 0x06] (fun t =>
    Tests.bytes t 0x600 6 = [0x17, 0x00, 0x00, 0x10, 0x00, 0x00]) = true := by decide

/-- R658's example. -/
theorem test_sidt :
  Tests.runs State.reset [0x0F, 0x01, 0x0E, 0x00, 0x06] (fun t =>
    Tests.bytes t 0x600 6 = [0xFF, 0x03, 0x00, 0x00, 0x00, 0x00]) = true := by decide

/-- R659's example. -/
theorem test_lmsw :
  Tests.runs { State.reset with regs := { Tests.zeros with eax := 1 } } [0x0F, 0x01, 0xF0] (fun t =>
    t.cr.cr0 = 1) = true := by decide

/-- R660's example. -/
theorem test_smsw :
  Tests.runs { State.reset with cr := ⟨0x11, 0, 0, 0, 0⟩ } [0x0F, 0x01, 0xE0] (fun t =>
    t.reg .w16 .eax = 0x11) = true := by decide

/-- R661's example. -/
theorem test_clts :
  Tests.runs { State.reset with cr := ⟨9, 0, 0, 0, 0⟩ } [0x0F, 0x06] (fun t =>
    t.cr.cr0 = 1) = true := by decide

/-- R260, R703: the bytes read so far. -/
theorem test_invalid_opcode :
  Tests.faults State.reset [0x26, 0x62] (.invalidOpcode [0x26, 0x62]) = true := by decide

/-- R261: MOV CS, AX. -/
theorem test_invalid_modrm :
  Tests.faults State.reset [0x8E, 0xC8] (.invalidOpcode [0x8E, 0xC8]) = true := by decide

/-- R262. -/
theorem test_x87_escape :
  Tests.faults State.reset [0xD8, 0xC0] (.invalidOpcode [0xD8]) = true := by decide

/-- R212: the last override wins. -/
theorem test_prefix_segment :
  Tests.runs ((({ State.reset with regs := { Tests.zeros with ebx := 0x10 } }).setSeg .es (realSegment .es
      0x2000)).hostBlockWrite 0x20010 [0x66, 0x66]) [0x36, 0x26, 0x8B, 0x07] (fun t =>
    t.reg .w16 .eax = 0x6666 ∧ t.eip = 4) = true := by decide

/-- R214, R223, R224: MOV AX, [EBX+ECX*4]. -/
theorem test_prefix_address_size :
  Tests.runs (({ State.reset with regs := { Tests.zeros with ebx := 0x1000, ecx := 2 } }).hostBlockWrite 0x1008 [0x33, 0x33])
      [0x67, 0x8B, 0x04, 0x8B] (fun t =>
    t.reg .w16 .eax = 0x3333 ∧ t.eip = 4) = true := by decide

/-- R216: no effect. -/
theorem test_prefix_lock :
  Tests.runs { State.reset with regs := { Tests.zeros with eax := 1, ebx := 2 } } [0xF0, 0x01, 0xD8] (fun t =>
    t.reg .w16 .eax = 3 ∧ t.eip = 3) = true := by decide

/-- R211, R213. -/
theorem test_prefix_twice :
  Tests.runs State.reset [0x66, 0x66, 0xB8, 0x78, 0x56, 0x34, 0x12] (fun t =>
    t.regs.eax = 0x12345678 ∧ t.eip = 7) = true := by decide

/-- R121, R705: the first address at P_MEM_SIZE. -/
theorem test_memory_bounds :
  Tests.faults (({ State.reset with regs := { Tests.zeros with ebx := 0xFFFF } }).setSeg .ds (realSegment .ds 0xF000))
      [0x8B, 0x07] (.memoryBounds 0x100000) = true := by decide

/-! ## Witnesses: for each statement with hypotheses, a state and operands that meet them -/

/-- Real mode, the last bytes of memory in reach: DS:BX is 0xFFFFE, SS:SP is 0xFFFFE, BX, SI and DI are 0xFFFE. -/
def Tests.edge : State :=
  ({ State.reset with regs := { Tests.zeros with ebx := 0xFFFE, esp := 0xFFFE, ebp := 0xFFFE, esi := 0xFFFE, edi := 0xFFFE } }
    |>.setSeg .ds (realSegment .ds 0xF000)).setSeg .ss (realSegment .ss 0xF000)

/-- The operand DS:[BX]. -/
def Tests.atBx : MemRef := ⟨.ds, .a16 .bx .none⟩

/-- Protected mode with a GDT of three entries at 0x800: null, code and data, base 0, limit 0xFFFF (R133). -/
def Tests.prot : State :=
  ({ State.reset with
      mode := .prot, cr := ⟨1, 0, 0, 0, 0⟩, gdtr := ⟨0x800, 0x17⟩, regs := { Tests.zeros with esp := 0x1000 } }).hostBlockWrite 0x808
    [0xFF, 0xFF, 0x00, 0x00, 0x00, 0x9A, 0x00, 0x00, 0xFF, 0xFF, 0x00, 0x00, 0x00, 0x92, 0x00, 0x00]

/-- A step answers a next state. -/
def Tests.completes (o : Host.Outcome State Fault Refusal) : Bool :=
  match o with
  | .next _ => true
  | _ => false

/-- Well-formed instructions, of memory at both address sizes and with prefixes. -/
theorem witness_EncodeDecodeRoundTrip :
    (Instr.add .w16 (.mem ⟨.ss, .a16 .bp (.byte 0x80)⟩) (.imm 0xFFFF)).wf .s16 .empty = true
      ∧ (Instr.movsw .s16 .s16 .gs true).wf .s32 ⟨some .gs, true, true, some .f2, true⟩ = true := by decide

/-- Decodable bytes. -/
theorem witness_DecodedIsWellFormed : decode .s16 .empty [0x90, 0x00] = some (.nop, [0x00]) := by decide

/-- Each clause of R261 for a one-byte opcode, at the bounds of its reg and mod fields. -/
theorem witness_InvalidFormsFault_one :
    (InvalidForm1 0xFE 0x10 ∧ InvalidForm1 0xFE 0xFF) ∧ (InvalidForm1 0xFF 0x38 ∧ InvalidForm1 0xFF 0xD8 ∧ InvalidForm1 0xFF 0xE8)
      ∧ (InvalidForm1 0x8F 0x08 ∧ InvalidForm1 0xC6 0x08 ∧ InvalidForm1 0xC7 0x38) ∧ (InvalidForm1 0x8C 0x30
      ∧ InvalidForm1 0x8E 0xC8)
      ∧ (InvalidForm1 0x8E 0x30 ∧ InvalidForm1 0x8D 0xC0) ∧ (InvalidForm1 0xC4 0xFF ∧ InvalidForm1 0xC5 0xC0)
      ∧ ¬InvalidForm1 0xFE 0x0F ∧ ¬InvalidForm1 0x8D 0xBF := by
  and_intros <;> decide

/-- Each clause of R261 for a two-byte opcode. -/
theorem witness_InvalidFormsFault_two :
    (InvalidForm2 0x01 0x28 ∧ InvalidForm2 0x01 0x38) ∧ (InvalidForm2 0x01 0xC0 ∧ InvalidForm2 0x01 0xD8)
      ∧ (InvalidForm2 0xBA 0x00 ∧ InvalidForm2 0xBA 0x1F) ∧ (InvalidForm2 0xB2 0xC0 ∧ InvalidForm2 0xB4 0xC0
      ∧ InvalidForm2 0xB5 0xFF)
      ∧ (InvalidForm2 0x20 0x28 ∧ InvalidForm2 0x22 0xFF) ∧ ¬InvalidForm2 0x01 0x18 ∧ ¬InvalidForm2 0xBA 0x20 := by
  and_intros <;> decide

/-- A machine whose pending request is masked by IF = 0. -/
def Tests.masked : State := (State.reset.requestInterrupt 8).setFlags { resetFlags with ifl := false }

/-- No request, a masked one, and one that is delivered: because IF is 1, or because IF masks nothing. -/
theorem witness_NoDelivery :
    State.reset.NoDelivery ∧ Tests.masked.latch.pending = true ∧ Tests.masked.NoDelivery
      ∧ ¬(State.reset.requestInterrupt 8).NoDelivery
      ∧ ¬({ Tests.masked with params := { State.reset.params with irqMaskedByIf := false } }).NoDelivery := by decide

/-- Machines that fetch such bytes, also with a masked request. -/
theorem witness_InvalidFormsFault_step :
    (let s := State.reset.hostBlockWrite 0 [0xFE, 0x38]
     s.NoDelivery ∧ s.halted = false ∧ s.window = 0xFE :: 0x38 :: s.window.drop 2)
    ∧ (let s := State.reset.hostBlockWrite 0 [0x0F, 0xBA, 0x1F]
       s.NoDelivery ∧ s.halted = false ∧ s.window = 0x0F :: 0xBA :: 0x1F :: s.window.drop 3)
    ∧ (let s := Tests.masked.hostBlockWrite 0 [0xFE, 0x38]
       s.NoDelivery ∧ s.halted = false ∧ s.window = 0xFE :: 0x38 :: s.window.drop 2) := by decide

/-- Opcodes of R260 and second bytes not in R251, and machines that fetch them. -/
theorem witness_InvalidOpcodesFault :
    (0xD6 : Byte) ∈ invalidOneByte ∧ (0xDF : Byte) ∈ invalidOneByte ∧ (0x0B : Byte) ∉ twoByteOpcodes
    ∧ (0xC0 : Byte) ∉ twoByteOpcodes
    ∧ (let s := State.reset.hostBlockWrite 0 [0xF1]
       s.NoDelivery ∧ s.halted = false ∧ s.window.take 1 = [0xF1])
    ∧ (let s := State.reset.hostBlockWrite 0 [0x0F, 0xA2]
       s.NoDelivery ∧ s.halted = false ∧ s.window.take 2 = [0x0F, 0xA2])
    ∧ (let s := Tests.masked.hostBlockWrite 0 [0xF1]
       s.NoDelivery ∧ s.halted = false ∧ s.window.take 1 = [0xF1]) := by decide

/-- An offset above the limit and one at it, an address at P_MEM_SIZE and one below it. -/
theorem witness_FetchRule :
    (let s := { Tests.prot.setSeg .cs ⟨8, ⟨0, 0xFF, true, true, false, false⟩⟩ with eip := 0xFF }
     s.mode = .prot ∧ s.segs.cs.desc.limit.toNat < (truncTo s.codeSize (s.eip + BitVec.ofNat 32 1)).toNat
      ∧ (truncTo s.codeSize (s.eip + BitVec.ofNat 32 0)).toNat ≤ s.segs.cs.desc.limit.toNat)
    ∧ (let s := { State.reset.setSeg .cs (realSegment .cs 0xFFFF) with eip := 0x0F }
       s.mode = .real ∧ (s.linear .cs (truncTo s.codeSize (s.eip + BitVec.ofNat 32 0))).toNat < s.params.memSize
        ∧ s.params.memSize ≤ (s.linear .cs (truncTo s.codeSize (s.eip + BitVec.ofNat 32 1))).toNat) := by decide

/-- Fifteen prefix bytes, with a masked request, and an instruction cut off by the end of memory, after a prefix. -/
theorem witness_OneByteMoreFaults :
    (let s := Tests.masked.hostBlockWrite 0 (List.replicate 15 0x26)
     let ps := List.replicate 15 Instr.prefixEs
     s.NoDelivery ∧ s.halted = false ∧ (∀ i ∈ ps, i.isPrefix = true) ∧ s.window = ps.flatMap encode ++ []
      ∧ decode s.codeSize (ps.foldl Prefixes.after .empty) [] = none ∧ s.window.length = 15)
    ∧ (let s := ({ State.reset.setSeg .cs (realSegment .cs 0xFFFF) with eip := 0x0E }).hostBlockWrite 0xFFFFE [0x26, 0x68]
       let ps := [Instr.prefixEs]
       s.NoDelivery ∧ s.halted = false ∧ (∀ i ∈ ps, i.isPrefix = true) ∧ s.window = ps.flatMap encode ++ [0x68]
        ∧ decode s.codeSize (ps.foldl Prefixes.after .empty) [0x68] = none ∧ s.window.length < 15
        ∧ s.fetchByte s.window.length = .error (.memoryBounds 0x100000)) := by
  refine ⟨by decide, by decide, by decide, by decide, by decide, by decide, by decide, rfl⟩

/-- Machines that fetch ADD AL, BL, one of them with a masked request. -/
theorem witness_StepRunsInstruction :
    ∀ m ∈ [State.reset, Tests.masked],
      let s := m.hostBlockWrite 0 [0x00, 0xD8]
      s.NoDelivery ∧ s.halted = false
        ∧ decode s.codeSize .empty s.window = some (.add .w8 (.reg .eax) (.rm (.reg .ebx)), s.window.drop 2)
        ∧ (Instr.add .w8 (.reg .eax) (.rm (.reg .ebx))).isPrefix = false := by decide

/-- A machine with a masked request that fetches an override, a repeat prefix and MOVSB. -/
theorem witness_StepRunsPrefixed :
    let s := Tests.masked.hostBlockWrite 0 [0x26, 0xF3, 0xA4]
    let ps := [Instr.prefixEs, Instr.prefixRep]
    s.NoDelivery ∧ s.halted = false ∧ (∀ j ∈ ps, j.isPrefix = true) ∧ (Instr.movsb .s16 .es true).isPrefix = false
      ∧ s.window = ps.flatMap encode ++ s.window.drop 2
      ∧ decode s.codeSize (ps.foldl Prefixes.after .empty) (s.window.drop 2) = some (.movsb .s16 .es true, s.window.drop 3) := by decide

/-- A prefix. -/
theorem witness_PrefixesRecorded : (Instr.prefixLock).isPrefix = true ∧ (Instr.nop).isPrefix = false := by decide

/-- An interrupt that can be delivered, also masked by no parameter, one whose delivery faults, and a halted machine. -/
theorem witness_CycleOrder :
    (let s := State.reset.requestInterrupt 8
     s.latch.pending = true ∧ s.flags.ifl = true ∧ s.deliverOk s.latch.vector s.eip = true)
    ∧ (let s := { State.reset.requestInterrupt 8 with
        flags := { resetFlags with ifl := false }, params := { State.reset.params with irqMaskedByIf := false } }
       s.latch.pending = true ∧ s.params.irqMaskedByIf = false ∧ s.deliverOk s.latch.vector s.eip = true)
    ∧ (let s := (State.reset.requestInterrupt 8).setSeg .ss (realSegment .ss 0xFFFF)
       s.latch.pending = true ∧ s.flags.ifl = true ∧ (s.setSp 0x16).deliverOk s.latch.vector s.eip = false)
    ∧ (let s := State.reset.setHalted true
       s.halted = true ∧ s.latch.pending = false)
    ∧ (let s := { (State.reset.requestInterrupt 8).setHalted true with flags := { resetFlags with ifl := false } }
       s.halted = true ∧ s.params.irqMaskedByIf = true ∧ s.flags.ifl = false) := by decide

/-- A delivery in real mode, and one in protected mode through a code selector. -/
theorem witness_DeliveryEffect :
    State.reset.deliverOk 255 0xFFFF = true
      ∧ (Tests.prot.hostBlockWrite 0x84 [0x00, 0x30, 0x08, 0x00]).deliverOk 0x21 5 = true := by
  decide

/-- A machine with the invariant whose step completes, one whose step faults, and one whose repetition faults. -/
theorem witness_StepKeepsInv :
    (State.reset.Inv ∧ Tests.completes (step State.reset) = true)
      ∧ (∃ f, (State.reset.hostBlockWrite 0 [0x62]).Inv ∧ step (State.reset.hostBlockWrite 0 [0x62]) = .fault f)
      ∧ (let s := ({ State.reset with regs := { Tests.zeros with ecx := 4, edi := 0xE } }.setSeg .es (realSegment .es 0xFFFF)).hostBlockWrite 0
          [0xF3, 0xAA]
         ∃ k t, s.Inv ∧ step s = .fault (.inRepetition k t)) := by
  refine ⟨⟨by decide, by decide⟩, ⟨_, by decide, rfl⟩, ⟨_, _, by decide, rfl⟩⟩

/-- The bounds of P_MEM_SIZE (R12): the least and the greatest value, and the values beyond them. -/
theorem witness_StepKeepsInv_params :
    (let sized := fun n : Nat => { State.reset with params := { State.reset.params with memSize := n } }
     (sized 0x100000).Inv ∧ (sized 0x100000000).Inv ∧ ¬(sized 0xFFFFF).Inv ∧ ¬(sized 0x100000001).Inv
      ∧ Tests.completes (step (sized 0x100000000)) = true) := by decide

/-- A step that completes. -/
theorem witness_StepNeverRefuses : Tests.completes (step State.reset) = true := by decide

/-- Instructions that complete, of each shape of frame: registers only, stack, storing, repeated, implicit registers. -/
theorem witness_RegisterFrame :
    (Tests.completes (exec (.add .w8 (.reg .esp) (.imm 1)) .reset) = true
    ∧ Reg.ecx ∉ (Instr.add .w8 (.reg .esp) (.imm 1)).regsWritten)
      ∧ (Tests.completes (exec (.popRm .s16 (.mem Tests.atBx)) Tests.edge) = true
        ∧ Reg.ebx ∉ (Instr.popRm .s16 (.mem Tests.atBx)).regsWritten)
      ∧ (Tests.completes (exec (.movsb .s16 .ds false) Tests.edge) = true ∧ Reg.ecx ∉ (Instr.movsb .s16 .ds false).regsWritten)
      ∧ (Tests.completes (exec (.mul .w8 (.reg .ebx)) .reset) = true ∧ Reg.edx ∉ (Instr.mul .w8 (.reg .ebx)).regsWritten)
      ∧ (Tests.completes (exec .popfd Tests.prot) = true ∧ Reg.eax ∉ Instr.popfd.regsWritten) := by decide

/-- Instructions that complete, for each clause: INC keeps CF, and each kind of instruction that keeps other flags. -/
theorem witness_FlagFrame :
    (Tests.completes (exec (.inc .w8 (.reg .eax)) .reset) = true ∧ StatusFlag.cf ∉ (Instr.inc .w8 (.reg .eax)).statusWritten
      ∧ Instr.inc .w8 (.reg .eax) ≠ .cld ∧ (Instr.inc .w8 (.reg .eax)).popsFlags = false
      ∧ (Instr.inc .w8 (.reg .eax)).isSoftInt = false)
    ∧ (Tests.completes (exec (.int 5) .reset) = true ∧ (Instr.int 5).popsFlags = false
    ∧ StatusFlag.cf ∉ (Instr.int 5).statusWritten)
    ∧ (Tests.completes (exec .popf .reset) = true ∧ Instr.popf.popsFlags32 = false)
    ∧ (Tests.completes (exec (.iret .s16) .reset) = true ∧ (Instr.iret .s16).popsFlags32 = false
    ∧ (Instr.iret .s16).isSoftInt = false)
    ∧ (Tests.completes (exec .cli .reset) = true ∧ StatusFlag.zf ∉ Instr.cli.statusWritten ∧ Instr.cli ≠ .cld) := by decide

/-- Instructions that complete, with an address outside their stored bytes: the neighbours of a word, and none stored at all. -/
theorem witness_MemoryFrame :
    (∃ t, exec (.add .w16 (.mem Tests.atBx) (.imm 1)) Tests.edge = .next t
      ∧ Outside 0xFFFFD ((Instr.add .w16 (.mem Tests.atBx) (.imm 1)).stored Tests.edge))
    ∧ (∃ t, exec (.cmp .w16 (.mem Tests.atBx) (.imm 1)) Tests.edge = .next t
      ∧ Outside 0xFFFFE ((Instr.cmp .w16 (.mem Tests.atBx) (.imm 1)).stored Tests.edge))
    ∧ (∃ t, exec (.push .s16 (.reg .eax)) Tests.edge = .next t
    ∧ Outside 0xFFFFE ((Instr.push .s16 (.reg .eax)).stored Tests.edge))
    ∧ (∃ t, exec (.stosb .s16 true) { Tests.edge with regs := { Tests.edge.regs with ecx := 2 } } = .next t
      ∧ Outside 0x10000 ((Instr.stosb .s16 true).stored { Tests.edge with regs := { Tests.edge.regs with ecx := 2 } })) := by
  refine ⟨⟨_, rfl, ?_⟩, ⟨_, rfl, ?_⟩, ⟨_, rfl, ?_⟩, ⟨_, rfl, ?_⟩⟩ <;> unfold Outside <;> decide

/-- Instructions that complete and load one segment register. -/
theorem witness_SegmentFrame :
    (Tests.completes (exec (.movToSeg .es (.reg .ebx)) Tests.edge) = true
    ∧ SegReg.ds ∉ (Instr.movToSeg .es (.reg .ebx)).segsWritten)
      ∧ Tests.completes (exec (.movToSeg .es (.reg .eax)) (Tests.prot.setReg .w16 .eax 0x10)) = true
      ∧ (Tests.completes (exec (.retf .s16) .reset) = true ∧ SegReg.ss ∉ (Instr.retf .s16).segsWritten) := by decide

/-- Instructions that complete, for each clause. -/
theorem witness_SystemFrame :
    (Tests.completes (exec (.lmsw (.reg .eax)) .reset) = true ∧ CReg.cr3 ∉ (Instr.lmsw (.reg .eax)).crsWritten
      ∧ (Instr.lmsw (.reg .eax)).samplesMode = false ∧ (Instr.lmsw (.reg .eax)).isIo = false
      ∧ (Instr.lmsw (.reg .eax)).isSoftInt = false
      ∧ (Instr.lmsw (.reg .eax)).isPrefix = false)
    ∧ (Tests.completes (exec (.jmpRel .s16 (.short 0)) .reset) = true ∧ (Instr.jmpRel .s16 (.short 0)).samplesMode = true)
    ∧ Tests.completes (exec .hlt .reset) = true ∧ Tests.completes (exec (.lgdt .s16 Tests.atBx) .reset) = true := by decide

/-- Another register. -/
theorem witness_RegisterViews : Reg.edi ≠ Reg.ebx := by decide

/-- The last byte, word and doubleword of memory; a block that ends with it, and an address outside the block. -/
theorem witness_HostRequests :
    State.reset.mapped 0xFFFFF 1 = true ∧ State.reset.mapped 0xFFFFE 2 = true ∧ State.reset.mapped 0xFFFFC 4 = true
      ∧ ([0x11, 0x22, 0x33] : List Byte).length ≤ 2 ^ 32 ∧ Outside 0xFFFFC [(0xFFFFD, 3)] := by
  refine ⟨by decide, by decide, by decide, by decide, ?_⟩
  unfold Outside
  decide

/-- The memory service (R743): little-endian words, and a block read of what a word and a block write left. -/
theorem test_memory_service :
    (let s := (State.reset.hostWriteDWord 0x100 0x44332211).hostBlockWrite 0x104 [0x55, 0x66]
     s.hostReadWord 0x101 = 0x3322 ∧ s.hostReadDWord 0x102 = 0x66554433
      ∧ (s.hostWriteWord 0x100 0xBEEF).hostBlockRead 0x100 6 = [0xEF, 0xBE, 0x33, 0x44, 0x55, 0x66]) := by decide

/-- Accesses that end at P_MEM_SIZE, that cross it at byte 2, that start at it, and that wrap at 2^32. -/
theorem witness_MemoryPrimitives :
    let s := State.reset
    (2 < Width.bytes .w32 ∧ s.params.memSize ≤ ((0xFFFFE : BitVec 32) + BitVec.ofNat 32 2).toNat
        ∧ ∀ j < 2, ((0xFFFFE : BitVec 32) + BitVec.ofNat 32 j).toNat < s.params.memSize)
      ∧ (0 < Width.bytes .w8 ∧ s.params.memSize ≤ ((0x100000 : BitVec 32) + BitVec.ofNat 32 0).toNat)
      ∧ (s.params.memSize ≤ ((0xFFFFFFFF : BitVec 32) + BitVec.ofNat 32 0).toNat)
      ∧ (7 < 8 ∧ s.params.memSize ≤ ((0xFFFF9 : BitVec 32) + BitVec.ofNat 32 7).toNat
        ∧ ∀ j < 7, ((0xFFFF9 : BitVec 32) + BitVec.ofNat 32 j).toNat < s.params.memSize)
      ∧ (∀ j < Width.bytes .w32, ((0xFFFFC : BitVec 32) + BitVec.ofNat 32 j).toNat < s.params.memSize)
      ∧ (∀ j < 8, ((0xFFFF8 : BitVec 32) + BitVec.ofNat 32 j).toNat < s.params.memSize)
      ∧ (0 : BitVec 32) ∉ [(0xFFFFC : BitVec 32)] := by decide

/-- Real mode; a null selector for CS; a selector one byte beyond the limit and one within it; an entry that cannot be read. -/
theorem witness_SetSelectorRule :
    State.reset.mode = .real ∧ Tests.prot.mode = .prot ∧ (3 : BitVec 16).toNat / 8 = 0
      ∧ Tests.prot.gdtr.limit.toNat < (0x18 : BitVec 16).toNat / 8 * 8 + 7
      ∧ (0x13 : BitVec 16).toNat / 8 * 8 + 7 ≤ Tests.prot.gdtr.limit.toNat ∧ (0x13 : BitVec 16).toNat / 8 ≠ 0
      ∧ (∃ d, Tests.prot.memRead64 (Tests.prot.gdtr.base + 0x10) = .ok d ∧ d.getLsbD 55 = false)
      ∧ (∃ k, (Tests.prot.setGdtr ⟨0xFFFF0, 0x17⟩).memRead64 (0xFFFF0 + 0x10) = .error k)
      ∧ (0x00CF9A000000FFFF : BitVec 64).getLsbD 55 = true := by
  refine ⟨rfl, rfl, by decide, by decide, by decide, by decide, ⟨_, rfl, by decide⟩, ⟨_, rfl⟩, by decide⟩

/-- A well-formed operand with an EBP base, an override that is there and one that is not, a decoded memory operand, and moffs. -/
theorem witness_EffectiveAddresses :
    MemRef.wf .s32 .empty ⟨.ss, .a32 (some .ebp) none (.byte 4)⟩ = true
      ∧ MemRef.wf .s16 { Prefixes.empty with seg := some .fs } ⟨.fs, .a16 .bpDi .none⟩ = true
      ∧ decode .s16 .empty [0x8B, 0x02] = some (.mov .w16 (.reg .eax) (.rm (.mem ⟨.ss, .a16 .bpSi .none⟩)), [])
      ∧ decode .s16 { Prefixes.empty with seg := some .gs } [0xA0, 0x10, 0x00]
        = some (.movAccMoffs .w8 ⟨.gs, .s16, 0x10⟩, [])
      ∧ decode .s16 .empty [0xA3, 0x10, 0x00] = some (.movMoffsAcc .w16 ⟨.ds, .s16, 0x10⟩, []) := by decide

/-- The bounds of the condition codes. -/
theorem witness_ConditionCodes : 0 < 16 ∧ 15 < 16 := by decide

/-- The last word of memory as destination, and as source; one byte more would be outside. -/
theorem witness_TwoOperandResults :
    Tests.edge.placeOk .w16 (Tests.edge.place (.mem Tests.atBx)) = true ∧ Tests.edge.operandOk .w16 (.imm 5) = true
      ∧ Tests.edge.operandOk .w16 (.rm (.mem Tests.atBx)) = true
      ∧ Tests.edge.placeOk .w32 (Tests.edge.place (.mem Tests.atBx)) = false := by
  decide

/-- The last byte and word of memory, and a register. -/
theorem witness_UnaryResults :
    Tests.edge.placeOk .w16 (Tests.edge.place (.mem Tests.atBx)) = true
      ∧ Tests.edge.placeOk .w32 (Tests.edge.place (.reg .edi)) = true := by
  decide

/-- 0x80 * 0x02 unsigned, -1 * 2 signed (R420, R421), and the examples of R423, the product of one of which does not fit. -/
theorem witness_MultiplyResults :
    (let s := { State.reset with regs := { Tests.zeros with eax := 0x80, ebx := 2 } }
     s.placeOk .w8 (s.place (.reg .ebx)) = true
      ∧ (1 : BitVec 8).toNat * 2 ^ 8 + (0 : BitVec 8).toNat = (s.reg .w8 .eax).toNat * (s.valueAt .w8 (s.place (.reg .ebx))).toNat)
    ∧ (let s := { State.reset with regs := { Tests.zeros with eax := 0xFF, ebx := 2 } }
       s.placeOk .w8 (s.place (.reg .ebx)) = true
        ∧ (0xFF : BitVec 8).toInt * 2 ^ 8 + (0xFE : BitVec 8).toNat = (s.reg .w8 .eax).toInt * (s.valueAt .w8 (s.place (.reg .ebx))).toInt)
    ∧ (let s := { State.reset with regs := { Tests.zeros with ecx := 3, edx := 0xFFFE } }
       s.placeOk .w16 (s.place (.reg .edx)) = true
        ∧ ((0xFFFA : BitVec 16).toInt - (s.reg .w16 .ecx).toInt * (s.valueAt .w16 (s.place (.reg .edx))).toInt) % 2 ^ 16 = 0)
    ∧ (let s := { State.reset with regs := { Tests.zeros with ebx := 0x1000 } }
       ((0xA000 : BitVec 16).toInt - (s.valueAt .w16 (s.place (.reg .ebx))).toInt * ((10 : BitVec 32).setWidth 16).toInt) % 2 ^ 16 = 0) := by
  decide

/-- The examples of R424 and R425: quotients at the bound of the width, just above it, and a zero divisor. -/
theorem witness_DivideResults :
    (let s := { State.reset with regs := { Tests.zeros with eax := 0x01FF, ebx := 2 } }
     let d := s.valueAt .w8 (s.place (.reg .ebx))
     s.placeOk .w8 (s.place (.reg .ebx)) = true ∧ (1 : BitVec 8).toNat < d.toNat
      ∧ (s.pair .w8).toNat = (0xFF : BitVec 8).toNat * d.toNat + (1 : BitVec 8).toNat)
    ∧ (let s := { State.reset with regs := { Tests.zeros with eax := 0xFFF9, ebx := 2 } }
       let d := s.valueAt .w8 (s.place (.reg .ebx))
       (0xFF : BitVec 8).toInt.natAbs < d.toInt.natAbs ∧ ((0xFF : BitVec 8).toInt < 0 ↔ (s.pair .w8).toInt < 0)
        ∧ (s.pair .w8).toInt = (0xFD : BitVec 8).toInt * d.toInt + (0xFF : BitVec 8).toInt)
    ∧ (let s := { State.reset with regs := { Tests.zeros with eax := 0x0080, ebx := 0xFF } }
       (s.pair .w8).toInt = (0x80 : BitVec 8).toInt * (s.valueAt .w8 (s.place (.reg .ebx))).toInt + (0 : BitVec 8).toInt)
    ∧ (let s := { State.reset with regs := { Tests.zeros with eax := 0x0200, ebx := 2 } }
       (s.valueAt .w8 (s.place (.reg .ebx))).toNat * 2 ^ 8 ≤ (s.pair .w8).toNat)
    ∧ (let s := { State.reset with regs := { Tests.zeros with eax := 0xFF80, ebx := 0xFF } }
       let d := s.valueAt .w8 (s.place (.reg .ebx))
       (0 : Int).natAbs < d.toInt.natAbs ∧ (s.pair .w8).toInt = 128 * d.toInt + 0 ∧ (2 : Int) ^ (8 - 1) ≤ 128)
    ∧ (State.reset.valueAt .w8 (State.reset.place (.reg .ebx))).toNat = 0 := by decide

/-- A base. -/
theorem witness_DecimalResults : (10 : Byte) ≠ 0 := by decide

/-- A rotate by 9 in 8 bits, and by 1. -/
theorem witness_RotateResults :
    State.reset.placeOk .w8 (State.reset.place (.reg .eax)) = true ∧ State.reset.shiftCount (.imm 9) ≠ 0
      ∧ State.reset.shiftCount .one = 1 := by
  decide

/-- A shift of the last word of memory by 31. -/
theorem witness_ShiftResults :
    Tests.edge.placeOk .w16 (Tests.edge.place (.mem Tests.atBx)) = true ∧ Tests.edge.shiftCount (.imm 31) ≠ 0 := by decide

/-- The counts 0 and 32, and CL = 0. -/
theorem witness_ZeroCountChangesNothing :
    State.reset.shiftCount (.imm 32) = 0 ∧ State.reset.shiftCount (.imm 0) = 0 ∧ State.reset.shiftCount .cl = 0
      ∧ Tests.edge.placeOk .w16 (Tests.edge.place (.mem Tests.atBx)) = true := by decide

/-- The counts 16 and 17 of a 16-bit double shift. -/
theorem witness_DoubleShiftResults :
    Tests.edge.placeOk .w16 (Tests.edge.place (.mem Tests.atBx)) = true ∧ State.reset.shiftCount (.imm 16) ≠ 0
      ∧ State.reset.shiftCount (.imm 16) ≤ Width.bits .w16 ∧ Width.bits .w16 < State.reset.shiftCount (.imm 17) := by decide

/-- Bit offset -1 of a memory operand; operands; scans with one, several and no bits set. -/
theorem witness_BitResults :
    (let s := { State.reset with regs := { Tests.zeros with eax := 0xFFFF, ebx := 0x100 } }
     15 < Width.bits .w16 ∧ (s.reg .w16 .eax).toInt = -1 * (Width.bits .w16 : Int) + (15 : Nat)
      ∧ s.placeOk .w16 (s.bitPlace .s16 (.mem Tests.atBx) (.reg .eax)).1 = true)
    ∧ (let s := { State.reset with regs := { Tests.zeros with ebx := 0x8018 } }
       let v := s.valueAt .w16 (s.place (.reg .ebx))
       s.placeOk .w16 (s.place (.reg .ebx)) = true ∧ v.getLsbD 3 = true ∧ (∀ j < 3, v.getLsbD j = false) ∧ v.getLsbD 15 = true)
    ∧ State.reset.valueAt .w16 (State.reset.place (.reg .ebx)) = 0 := by decide

/-- Scans backwards: no bit above the greatest. -/
theorem witness_BitResults_reverse : ∀ j, 15 < j → (0x8018 : BitVec 16).getLsbD j = false := by
  intro j h
  exact BitVec.getLsbD_of_ge _ _ h

/-- Operands at the end of memory. -/
theorem witness_MoveResults :
    Tests.edge.placeOk .w16 (Tests.edge.place (.mem Tests.atBx)) = true ∧ Tests.edge.operandOk .w16 (.rm (.reg .eax)) = true
      ∧ Tests.edge.mapped (Tests.edge.linear .ds 0xFFFE) 2 = true := by decide

/-- Extended values of the sign bit alone, the LAHF image after reset, and an XLAT at the last byte of memory. -/
theorem witness_ConvertResults :
    (let s := { State.reset with regs := { Tests.zeros with eax := 0x8080, ebx := 0x8080 } }
     s.placeOk .w8 (s.place (.reg .ebx)) = true ∧ (0x0080 : BitVec 16).toNat = (s.valueAt .w8 (s.place (.reg .ebx))).toNat
      ∧ (0xFF80 : BitVec 16).toInt = (s.valueAt .w8 (s.place (.reg .ebx))).toInt
      ∧ (0x00008080 : BitVec 32).toNat = (s.valueAt .w16 (s.place (.reg .ebx))).toNat
      ∧ (0xFFFF8080 : BitVec 32).toInt = (s.valueAt .w16 (s.place (.reg .ebx))).toInt
      ∧ (0xFF80 : BitVec 16).toInt = (s.reg .w8 .eax).toInt ∧ (0xFFFF8080 : BitVec 32).toInt = (s.reg .w16 .eax).toInt
      ∧ (0xFFFF : BitVec 16).toInt = (if (s.reg .w16 .eax).toInt < 0 then -1 else 0))
    ∧ (let v : BitVec 8 := 0x40
       let f := State.reset.flags
       v.getLsbD 7 = f.sf ∧ v.getLsbD 6 = f.zf ∧ v.getLsbD 5 = false ∧ v.getLsbD 4 = f.af ∧ v.getLsbD 3 = false
       ∧ v.getLsbD 2 = f.pf
        ∧ v.getLsbD 1 = false ∧ v.getLsbD 0 = f.cf)
    ∧ (let s := { Tests.edge with regs := { Tests.edge.regs with eax := 1 } }
       s.mapped (s.linear .ds (truncTo .s16 ((s.reg .w16 .ebx).setWidth 32 + BitVec.ofNat 32 (s.reg .w8 .eax).toNat))) 1 = true) := by
  decide

/-- Selectors that can be loaded, in both modes, and a far pointer that ends at the end of memory. -/
theorem witness_SegmentMoveResults :
    Tests.edge.mapped (Tests.edge.memAddr Tests.atBx) 2 = true
      ∧ (Tests.edge.placeOk .w16 (Tests.edge.place (.mem Tests.atBx)) = true
        ∧ Tests.edge.selectorOk .es (Tests.edge.valueAt .w16 (Tests.edge.place (.mem Tests.atBx))) = true)
      ∧ (Tests.prot.selectorOk .ds 0x10 = true ∧ Tests.prot.selectorOk .cs 3 = false ∧ Tests.prot.selectorOk .ds 3 = true)
      ∧ (let s := { Tests.edge with regs := { Tests.edge.regs with ebx := 0xFFFC } }
         s.farOk .s16 Tests.atBx = true ∧ s.selectorOk .ds (s.farSel .s16 Tests.atBx) = true)
      ∧ Tests.edge.farOk .s32 Tests.atBx = false := by decide

/-- Slots at the end of memory and across the wrap of SP, in both modes. -/
theorem witness_PushPopRule :
    Tests.edge.popOk .s16 = true ∧ Tests.edge.popOk .s32 = false ∧ (Tests.edge.setSp 0).slotOk .s16 1 = true
      ∧ State.reset.mode = .real ∧ Tests.prot.slotOk .s32 1 = true := by decide

/-- A slot and a source at the end of memory. -/
theorem witness_PushResults :
    (Tests.edge.setSp 0).slotOk .s16 1 = true
    ∧ (Tests.edge.setSp 0).placeOk .w16 ((Tests.edge.setSp 0).place (.mem Tests.atBx)) = true := by
  decide

/-- A pop of the last word of memory, a memory destination, and a selector in protected mode. -/
theorem witness_PopResults :
    Tests.edge.popOk .s16 = true
      ∧ (Tests.edge.popped .s16).placeOk .w16 ((Tests.edge.popped .s16).place (.mem Tests.atBx)) = true
      ∧ (let s := Tests.prot.hostBlockWrite 0x1000 [0x10, 0x00]
         s.popOk .s16 = true ∧ (s.popped .s16).selectorOk .es (BitVec.ofNat 16 (s.popValue .s16).toNat) = true) := by decide

/-- Eight slots down to address 0, and eight up to the end of memory. -/
theorem witness_PushaPopaResults :
    (∀ k, 1 ≤ k → k ≤ 8 → (State.reset.setSp 0x10).slotOk .s16 k = true)
    ∧ ∀ k, k < 8 → (Tests.edge.setSp 0xFFF0).upSlotOk .s16 k = true := by
  constructor
  · intro k h1 h2
    interval_cases k <;> decide
  · decide

/-- ENTER with level 3, which copies two slots that no push has stored to, and LEAVE at the end of memory. -/
theorem witness_EnterLeaveResults :
    (let s := (State.reset.setSp 0x1000).setReg .w16 .ebp 0x2000
     let copied := fun j : Nat =>
       s.linear .ss (truncTo s.sw ((s.reg s.sw.width .ebp).setWidth 32 - BitVec.ofNat 32 (j * Width.bytes .w16)))
     (∀ j, 1 ≤ j → j ≤ (3 : Byte).toNat % 32 + 1 → s.slotOk .s16 j = true)
      ∧ ∀ j, 1 ≤ j → j < (3 : Byte).toNat % 32 →
        s.mapped (copied j) 2 = true ∧ ∀ m < 2, Outside (copied j + BitVec.ofNat 32 m) (s.slots .s16 j))
    ∧ (Tests.edge.setSp ((Tests.edge.reg Tests.edge.sw.width .ebp).setWidth 32)).popOk .s16 = true := by
  refine ⟨⟨fun j h1 h2 => ?_, fun j h1 h2 => ?_⟩, by decide⟩
  · have h3 : j ≤ 4 := h2
    interval_cases j <;> decide
  · have h3 : j < 3 := h2
    unfold Outside
    interval_cases j <;> decide

/-- Operands, slots and stack tops at the end of memory. -/
theorem witness_NearCallResults :
    (let m := Tests.edge.sampleMode
     m.placeOk .w16 (m.place (.mem Tests.atBx)) = true ∧ m.popOk .s16 = true)
    ∧ (Tests.edge.setSp 0).sampleMode.slotOk .s16 1 = true := by decide

/-- A selector that can be loaded and one that cannot, in protected mode; a far pointer, two slots, and two words to pop. -/
theorem witness_FarCallResults :
    (∃ k, Tests.prot.setSelector .cs 0x18 = .error k) ∧ (∃ t, Tests.prot.setSelector .cs 8 = .ok t)
      ∧ (let m := Tests.prot.sampleMode
         m.selectorOk .cs 8 = true ∧ m.slotOk .s16 1 = true ∧ m.slotOk .s16 2 = true)
      ∧ (let m := (Tests.edge.setReg .w16 .ebx 0xFFFC).sampleMode
         m.farOk .s16 Tests.atBx = true ∧ m.selectorOk .cs (m.farSel .s16 Tests.atBx) = true)
      ∧ (let m := (Tests.prot.hostBlockWrite 0x1000 [0x00, 0x30, 0x08, 0x00]).sampleMode
         m.popOk .s16 = true ∧ (m.popped .s16).popOk .s16 = true
          ∧ m.selectorOk .cs (BitVec.ofNat 16 ((m.popped .s16).popValue .s16).toNat) = true) := by
  refine ⟨⟨_, rfl⟩, ⟨_, rfl⟩, by decide, by decide, by decide⟩

/-- Deliveries by INT, INT3 and INTO with OF 1, INTO with OF 0, and returns by IRET and IRETD. -/
theorem witness_InterruptResults :
    State.reset.deliverOk 0x21 State.reset.next = true ∧ State.reset.deliverOk 3 State.reset.next = true
      ∧ (let s := { State.reset with flags := { resetFlags with ofl := true } }
         s.flags.ofl = true ∧ s.deliverOk 4 s.next = true)
      ∧ State.reset.flags.ofl = false
      ∧ (let a := (Tests.edge.setSp 0xFFFA).sampleMode
         let b := a.popped .s16
         a.popOk .s16 = true ∧ b.popOk .s16 = true ∧ (b.popped .s16).popOk .s16 = true
          ∧ a.selectorOk .cs (BitVec.ofNat 16 (b.popValue .s16).toNat) = true)
      ∧ (let a := (Tests.prot.hostBlockWrite 0x1000 [0x00, 0x30, 0x00, 0x00, 0x08, 0x00, 0x00, 0x00]).sampleMode
         let b := a.popped .s32
         a.popOk .s32 = true ∧ b.popOk .s32 = true ∧ (b.popped .s32).popOk .s32 = true
          ∧ a.selectorOk .cs (BitVec.ofNat 16 (b.popValue .s32).toNat) = true) := by decide

/-- Elements at the end of memory. -/
theorem witness_StringOnceResults :
    let s := Tests.edge.setSeg .es (realSegment .es 0xF000)
    s.mapped (s.linear .ds ((s.reg .w16 .esi).setWidth 32)) (Width.bytes .w16) = true
      ∧ s.mapped (s.linear .es ((s.reg .w16 .edi).setWidth 32)) (Width.bytes .w16) = true := by decide

/-- Counts of 0 and above, an iteration that completes, one that ends the repetition, and one that faults. -/
theorem witness_StringRepetition :
    State.reset.count .s16 = 0
      ∧ (let s := { State.reset with regs := { Tests.zeros with ecx := 1 } }
         s.count .s16 ≠ 0 ∧ ∃ t, exec (.cmpsb .s16 .ds .once) s = .next t ∧ t.flags.zf = true)
      ∧ (let s := ({ State.reset with regs := { Tests.zeros with ecx := 1, edi := 0x10 } }).setSeg .es (realSegment .es 0xFFFF)
         s.count .s16 ≠ 0 ∧ ∃ k, exec (.stosb .s16 false) s = .fault (.precise k)) := by
  refine ⟨by decide, ⟨by decide, _, rfl, by decide⟩, by decide, _, rfl⟩

/-- Two words downwards from the end of memory, and no element at all. -/
theorem witness_RepeatedStoreFills :
    let s := ({ Tests.edge with
      regs := { Tests.edge.regs with ecx := 2 }, flags := { resetFlags with df := true } }).setSeg .es (realSegment .es 0xF000)
    (∀ j < (s.count .s16).toNat, s.mapped (s.dstAt .s16 .w16 j) (Width.bytes .w16) = true)
    ∧ (State.reset.count .s32).toNat = 0 := by decide

/-- No registration. -/
theorem witness_PortResults : State.reset.params.ioMap = [] := rfl

/-- The later of two registrations that name a port wins; the other ports of both keep their device; a port beside has none (R174). -/
theorem test_later_registration_wins :
    (let s := (State.reset.registerPorts [0x20, 0x21] 1).registerPorts [0x21, 0x22] 2
     s.deviceOf 0x20 = some 1 ∧ s.deviceOf 0x21 = some 2 ∧ s.deviceOf 0x22 = some 2 ∧ s.deviceOf 0x23 = none) := by decide

/-- IF 1 and IF 0. -/
theorem witness_FlagControlResults :
    State.reset.flags.ifl = true ∧ (State.reset.setFlags { resetFlags with ifl := false }).flags.ifl = false := by decide

/-- Operands at the end of memory. -/
theorem witness_SystemRegisterResults :
    Tests.edge.placeOk .w16 (Tests.edge.place (.mem Tests.atBx)) = true
      ∧ Tests.edge.mapped (Tests.edge.memAddr Tests.atBx) 2 = true
      ∧ (Tests.edge.setReg .w16 .ebx 0xFFFA).tableOk Tests.atBx = true
      ∧ (Tests.edge.setReg .w16 .ebx 0xFFFB).tableOk Tests.atBx = false := by
  decide

end Sys2Proof
end

section
/-! SUPPORT. What every instruction leaves as it was: the parameters, VM, VIF and VIP, and memory that is canonical and below
P_MEM_SIZE. `State.Keeps` says so of one state after another, `State.KeptBy` of a computation that may fault. There is one rule for
each operation that the instructions share, and then one case for each instruction. -/

namespace Sys2Proof.Machine

/-! ## Flags: no computation reaches VM, VIF and VIP (R67, R68) -/

/-- The flags that no instruction writes: VM, VIF and VIP. -/
def Flags.virt (f : Flags) : Bool × Bool × Bool := (f.vm, f.vif, f.vip)

section
variable (f : Flags) (k : Nat) {n : Nat}

@[simp] theorem Flags.put_virt (x : StatusFlag) (b : Bool) : (f.put x b).virt = f.virt := by cases x <;> rfl

@[simp] theorem Flags.free_virt (l : List StatusFlag) : (f.free k l).virt = f.virt := by
  induction l generalizing f with
  | nil => rfl
  | cons x xs ih => exact (ih _).trans (f.put_virt x _)

@[simp] theorem Flags.szp_virt (r : BitVec n) : (f.szp r).virt = f.virt := by simp only [Flags.virt, Flags.szp]
@[simp] theorem Flags.addFlags_virt (a b : BitVec n) (c : Bool) : (f.addFlags a b c).2.virt = f.virt := by
  simp only [Flags.virt, Flags.addFlags, Flags.szp]
@[simp] theorem Flags.subFlags_virt (a b : BitVec n) (c : Bool) : (f.subFlags a b c).2.virt = f.virt := by
  simp only [Flags.virt, Flags.subFlags, Flags.szp]
@[simp] theorem Flags.keepCarry_virt (r : BitVec n × Flags) : (f.keepCarry r).2.virt = r.2.virt := by
  simp only [Flags.virt, Flags.keepCarry]
@[simp] theorem Flags.withLogic_virt (r : BitVec n) : (f.withLogic k r).2.virt = f.virt := Flags.free_virt _ k _

@[simp] theorem Flags.putOverflow_virt (cnt : Nat) (b : Bool) : (f.putOverflow k cnt b).virt = f.virt := by
  unfold Flags.putOverflow
  split
  · exact f.put_virt _ _
  · exact f.free_virt k _

section
variable (step : BitVec n → Bool → BitVec n × Bool) (ovf : BitVec n → BitVec n → Bool → Bool) (cnt : Nat) (a : BitVec n)

@[simp] theorem Flags.rotate_virt : (f.rotate k step ovf cnt a).2.virt = f.virt := Flags.putOverflow_virt _ k cnt _

@[simp] theorem Flags.shift_virt : (f.shift k step ovf cnt a).2.virt = f.virt :=
  (Flags.free_virt _ k _).trans (f.rotate_virt k step ovf cnt a)

@[simp] theorem Flags.doubleShift_virt (r : BitVec n) (c : Bool) : (f.doubleShift k cnt a r c).2.virt = f.virt := by
  unfold Flags.doubleShift
  split
  · exact f.free_virt k _
  · exact (Flags.putOverflow_virt _ k cnt _).trans (Flags.free_virt _ k _)
end

@[simp] theorem Flags.mulFlags_virt (b : Bool) : (f.mulFlags k b).virt = f.virt := Flags.free_virt _ k _
@[simp] theorem Flags.divFlags_virt : (f.divFlags k).virt = f.virt := Flags.free_virt _ k _
@[simp] theorem Flags.bitFlags_virt (b : Bool) : (f.bitFlags k b).virt = f.virt := Flags.free_virt _ k _
@[simp] theorem Flags.scanFlags_virt (b : Bool) : (f.scanFlags k b).virt = f.virt := Flags.free_virt _ k _
@[simp] theorem Flags.daa_virt (al : BitVec 8) : (f.daa k al).2.virt = f.virt := Flags.free_virt _ k _
@[simp] theorem Flags.das_virt (al : BitVec 8) : (f.das k al).2.virt = f.virt := Flags.free_virt _ k _
@[simp] theorem Flags.aaa_virt (ax : BitVec 16) : (f.aaa k ax).2.virt = f.virt := Flags.free_virt _ k _
@[simp] theorem Flags.aas_virt (ax : BitVec 16) : (f.aas k ax).2.virt = f.virt := Flags.free_virt _ k _
@[simp] theorem Flags.asciiFlags_virt (al : BitVec 8) : (f.asciiFlags k al).virt = f.virt := Flags.free_virt _ k _
@[simp] theorem Flags.load16_virt (v : BitVec 16) : (f.load16 v).virt = f.virt := rfl
@[simp] theorem Flags.loadPopfd_virt (v : BitVec 32) : (f.loadPopfd v).virt = f.virt := rfl
@[simp] theorem Flags.loadIretd_virt (v : BitVec 32) : (f.loadIretd v).virt = f.virt := rfl
@[simp] theorem Flags.maskTraps_virt : ({ f with ifl := false, tf := false, ac := false } : Flags).virt = f.virt := rfl
@[simp] theorem Flags.loadAh_virt (v : BitVec 8) : (f.loadAh v).virt = f.virt := rfl
end

/-! ## States: what is kept -/

/-- Memory is canonical and below P_MEM_SIZE (R120). -/
def State.MemOk (s : State) : Prop := s.mem.wf = true ∧ Memory.below s.params.memSize s.mem = true

/-- From `s` to `t`, the parameters and VM, VIF, VIP are as they were, and memory is well formed if it was. -/
structure State.Frame (s t : State) : Prop where
  params : t.params = s.params
  virt : t.flags.virt = s.flags.virt
  mem : s.MemOk → t.MemOk

/-- What all operations keep but those that halt, wake or decode: the frame, `halted` and the transient state. -/
structure State.Keeps (s t : State) : Prop extends State.Frame s t where
  halted : t.halted = s.halted
  cyc : t.cyc = s.cyc

theorem State.Frame.refl (s : State) : s.Frame s := ⟨rfl, rfl, id⟩

theorem State.Frame.trans {s t u : State} (h : s.Frame t) (h' : t.Frame u) : s.Frame u :=
  ⟨h'.params.trans h.params, h'.virt.trans h.virt, h'.mem ∘ h.mem⟩

theorem State.Keeps.refl (s : State) : s.Keeps s := ⟨.refl s, rfl, rfl⟩

theorem State.Keeps.trans {s t u : State} (h : s.Keeps t) (h' : t.Keeps u) : s.Keeps u :=
  ⟨h.toFrame.trans h'.toFrame, h'.halted.trans h.halted, h'.cyc.trans h.cyc⟩

section
variable {s t : State}

theorem State.Frame.setCyc (h : s.Frame t) (c : Cyc) : s.Frame (t.setCyc c) := ⟨h.params, h.virt, h.mem⟩
theorem State.Frame.setHalted (h : s.Frame t) (b : Bool) : s.Frame (t.setHalted b) := ⟨h.params, h.virt, h.mem⟩
theorem State.Frame.setIntDepth (h : s.Frame t) (v : Nat) : s.Frame (t.setIntDepth v) := ⟨h.params, h.virt, h.mem⟩

namespace State.Keeps
variable (h : s.Keeps t)
include h

/-! ### Updates that leave parameters, FLAGS, memory, `halted` and `cyc` alone -/

theorem setRegs (v : Regs) : s.Keeps (t.setRegs v) := ⟨⟨h.params, h.virt, h.mem⟩, h.halted, h.cyc⟩
theorem setReg (w : Width) (r : Reg) (v : BitVec w.bits) : s.Keeps (t.setReg w r v) := h.setRegs _
theorem setEip (v : BitVec 32) : s.Keeps (t.setEip v) := ⟨⟨h.params, h.virt, h.mem⟩, h.halted, h.cyc⟩
theorem setSeg (r : SegReg) (v : Segment) : s.Keeps (t.setSeg r v) := ⟨⟨h.params, h.virt, h.mem⟩, h.halted, h.cyc⟩
theorem setCr (c : CReg) (v : BitVec 32) : s.Keeps (t.setCr c v) := ⟨⟨h.params, h.virt, h.mem⟩, h.halted, h.cyc⟩
theorem setGdtr (v : TableReg) : s.Keeps (t.setGdtr v) := ⟨⟨h.params, h.virt, h.mem⟩, h.halted, h.cyc⟩
theorem setIdtr (v : TableReg) : s.Keeps (t.setIdtr v) := ⟨⟨h.params, h.virt, h.mem⟩, h.halted, h.cyc⟩
theorem setLatch (v : Latch) : s.Keeps (t.setLatch v) := ⟨⟨h.params, h.virt, h.mem⟩, h.halted, h.cyc⟩
theorem setIntDepth (v : Nat) : s.Keeps (t.setIntDepth v) := ⟨⟨h.params, h.virt, h.mem⟩, h.halted, h.cyc⟩
theorem sampleMode : s.Keeps t.sampleMode := ⟨⟨h.params, h.virt, h.mem⟩, h.halted, h.cyc⟩
theorem logIo (e : IoEvent) : s.Keeps (t.logIo e) := ⟨⟨h.params, h.virt, h.mem⟩, h.halted, h.cyc⟩
theorem drawn : s.Keeps t.drawn := ⟨⟨h.params, h.virt, h.mem⟩, h.halted, h.cyc⟩
theorem advance : s.Keeps t.advance := h.setEip _
theorem setNearEip (os : Size) (v : BitVec 32) : s.Keeps (t.setNearEip os v) := h.setEip _

theorem setSp (v : BitVec 32) : s.Keeps (t.setSp v) := by
  rw [State.setSp_eq]
  exact h.setRegs _

theorem setHalves (w : Width) (a b : BitVec w.bits) : s.Keeps (t.setHalves w a b) := (h.setReg w _ b).setReg w _ a
theorem decCount (as : Size) : s.Keeps (t.decCount as) := h.setReg as.width _ _
theorem stepIndex (as : Size) (w : Width) (r : Reg) : s.Keeps (t.stepIndex as w r) := h.setReg as.width _ _

theorem extendAcc (os : Size) : s.Keeps (t.extendAcc os) := by
  cases os with
  | s16 => exact h.setReg .w16 _ _
  | s32 => exact h.setReg .w32 _ _

theorem branch (b : Bool) (os : Size) (rel : BitVec 32) : s.Keeps (t.branch b os rel) := by
  cases b with
  | true => exact h.sampleMode.setNearEip os _
  | false => exact h.sampleMode.advance

theorem loopBranch (b : Bool) (os as : Size) (rel : Byte) : s.Keeps (t.loopBranch b os as rel) :=
  (h.decCount as).branch _ os _

theorem ioRead (port : BitVec 16) (w : Width) : s.Keeps (t.ioRead port w).2 := by
  cases hd : t.deviceOf port with
  | none => rw [State.ioRead_of_none w hd]; exact h
  | some d => rw [State.ioRead_of_device w hd]; exact (h.logIo _).drawn

theorem ioWrite (port : BitVec 16) (w : Width) (v : BitVec w.bits) : s.Keeps (t.ioWrite port w v) := by
  cases hd : t.deviceOf port with
  | none => rw [State.ioWrite_of_none v hd]; exact h
  | some d => rw [State.ioWrite_of_device v hd]; exact h.logIo _

theorem inPort (w : Width) (port : BitVec 16) : s.Keeps (t.inPort w port) := ((h.ioRead port w).setReg w _ _).advance

/-! ### FLAGS and memory -/

theorem setFlags {f : Flags} (hf : f.virt = s.flags.virt) : s.Keeps (t.setFlags f) :=
  ⟨⟨h.params, hf, h.mem⟩, h.halted, h.cyc⟩

theorem store {lin : BitVec 32} {w : Width} (v : BitVec w.bits) (hb : t.mapped lin w.bytes = true) :
    s.Keeps (t.store lin w v) := by
  refine ⟨⟨by simp [h.params], by simp [h.virt], fun hs => ?_⟩, by simp [h.halted], by simp [h.cyc]⟩
  obtain ⟨hwf, hbelow⟩ := h.mem hs
  refine ⟨State.store_wf v hwf, ?_⟩
  simp only [Memory.below, List.all_eq_true, decide_eq_true_eq, State.store_params] at hbelow ⊢
  exact State.store_below v ((State.mapped_iff t lin _).mp hb) hbelow

end State.Keeps
end

/-! ## Computations that may fault -/

/-- A computation that succeeds keeps what `State.Keeps` says; one that faults leaves no state. -/
def State.KeptBy (s : State) (x : Except FaultKind State) : Prop := ∀ t, x = .ok t → s.Keeps t

namespace State.KeptBy
variable {s t : State}

theorem ok (h : s.Keeps t) : s.KeptBy (.ok t) := fun _ hu => Except.ok.inj hu ▸ h

theorem error (k : FaultKind) : s.KeptBy (.error k) := fun _ hu => nomatch hu

/-- A computation that answers a value, such as a read, leaves nothing to show. -/
theorem bind_value {α : Type} {x : Except FaultKind α} {f : α → Except FaultKind State} (hf : ∀ a, s.KeptBy (f a)) :
    s.KeptBy (x >>= f) := fun u hu =>
  have ⟨a, _, ha⟩ := bind_ok.mp hu
  hf a u ha

theorem bind_state {x : Except FaultKind State} {f : State → Except FaultKind State} (hx : s.KeptBy x)
    (hf : ∀ t, s.Keeps t → s.KeptBy (f t)) : s.KeptBy (x >>= f) := fun u hu =>
  have ⟨t, ht, hu⟩ := bind_ok.mp hu
  hf t (hx t ht) u hu

/-- A pop answers a value and a state with a new stack pointer (R370). -/
theorem bind_pop {n : Size} {f : BitVec n.width.bits × State → Except FaultKind State} (h : s.Keeps t)
    (hf : ∀ v u, s.Keeps u → s.KeptBy (f (v, u))) : s.KeptBy (t.pop n >>= f) := fun r hr => by
  obtain ⟨⟨v, u⟩, hpop, hu⟩ := bind_ok.mp hr
  obtain ⟨-, -, rfl⟩ := State.pop_iff.mp hpop
  exact hf v _ (h.setSp _) r hu

theorem ite {c : Prop} [Decidable c] {x y : Except FaultKind State} (hx : s.KeptBy x) (hy : s.KeptBy y) :
    s.KeptBy (if c then x else y) := by
  split
  · exact hx
  · exact hy

end State.KeptBy

/-! ### Accesses, stack and segments -/

namespace State.Keeps
variable {s t : State} (h : s.Keeps t)
include h

theorem memWrite (w : Width) (lin : BitVec 32) (v : BitVec w.bits) : s.KeptBy (t.memWrite w lin v) := fun _ hu => by
  obtain ⟨hb, rfl⟩ := State.memWrite_iff.mp hu
  exact h.store v hb

theorem writeAt (w : Width) (p : Place) (v : BitVec w.bits) : s.KeptBy (t.writeAt w p v) := by
  cases p with
  | reg r => exact .ok (h.setReg w r v)
  | mem lin => exact h.memWrite w lin v

theorem writeRm (w : Width) (x : Rm) (v : BitVec w.bits) : s.KeptBy (t.writeRm w x v) := h.writeAt w _ v

theorem storeWord (os : Size) (x : Rm) (v : BitVec 16) : s.KeptBy (t.storeWord os x v) := by
  cases x with
  | reg r => exact .ok (h.setReg os.width r _)
  | mem m => exact h.memWrite .w16 _ v

theorem writeTable (os : Size) (m : MemRef) (v : TableReg) : s.KeptBy (t.writeTable os m v) :=
  .bind_state (h.memWrite .w16 _ _) fun _ hu => hu.memWrite .w32 _ _

theorem push (n : Size) (v : BitVec n.width.bits) : s.KeptBy (t.push n v) := (h.setSp _).memWrite n.width _ v

theorem pushAll (os : Size) (l : List (BitVec os.width.bits)) : s.KeptBy (t.pushAll os l) := by
  induction l generalizing t with
  | nil => exact .ok h
  | cons v vs ih => exact .bind_state (h.push os v) fun _ hu => ih hu

theorem popAll (os : Size) (l : List Reg) : s.KeptBy (t.popAll os l) := by
  induction l generalizing t with
  | nil => exact .ok h
  | cons r rs ih => exact .bind_pop h fun v u hu => .ite (ih hu) (ih (hu.setReg os.width r v))

theorem enterLoop (os : Size) (fp : BitVec 32) (k : Nat) : s.KeptBy (t.enterLoop os fp k) := by
  induction k generalizing t fp with
  | zero => exact .ok h
  | succ k ih => exact .bind_value fun v => .bind_state (h.push os v) fun _ hu => ih hu _

theorem enterLevels (os : Size) (fp frame : BitVec 32) (level : Nat) : s.KeptBy (t.enterLevels os fp frame level) :=
  .ite (.ok h) (.bind_state (h.enterLoop os fp _) fun _ hu => hu.push os _)

theorem setSelector (r : SegReg) (v : BitVec 16) : s.KeptBy (t.setSelector r v) := fun _ hu => by
  obtain ⟨-, rfl⟩ := State.setSelector_iff.mp hu
  exact h.setSeg r _

theorem farTransfer (sel : BitVec 16) (off : BitVec 32) : s.KeptBy (t.farTransfer sel off) :=
  .bind_state (h.setSelector .cs sel) fun _ hu => .ok (hu.setEip _)

theorem pushSeg (os : Size) (r : SegReg) : s.KeptBy (t.pushSeg os r) :=
  .bind_state (h.push os _) fun _ hu => .ok hu.advance

theorem popSeg (os : Size) (r : SegReg) : s.KeptBy (t.popSeg os r) :=
  .bind_pop h fun _ _ hu => .bind_state (hu.setSelector r _) fun _ hu => .ok hu.advance

theorem loadFar (os : Size) (r : SegReg) (dst : Reg) (m : MemRef) : s.KeptBy (t.loadFar os r dst m) :=
  .bind_value fun _ => .bind_state (h.setSelector r _) fun _ hu => .ok (hu.setReg os.width dst _)

theorem setCond (c : Cond) (x : Rm) : s.KeptBy (t.setCond c x) :=
  .bind_state (h.writeRm .w8 x _) fun _ hu => .ok hu.advance

/-! ### Control transfers -/

theorem callNear (os : Size) (target : BitVec 32) : s.KeptBy (t.callNear os target) :=
  .bind_state (h.push os _) fun _ hu => .ok (hu.setNearEip os target)

theorem callFar (os : Size) (sel : BitVec 16) (off : BitVec 32) : s.KeptBy (t.callFar os sel off) :=
  .bind_state (h.farTransfer sel off) fun _ hu => .bind_state (hu.push os _) fun _ hu => hu.push os _

theorem returnNear (os : Size) (release : BitVec 16) : s.KeptBy (t.returnNear os release) :=
  .bind_pop h fun _ _ hu => .ok ((hu.setSp _).setNearEip os _)

theorem returnFar (os : Size) (release : BitVec 16) : s.KeptBy (t.returnFar os release) :=
  .bind_pop h fun _ _ hu => .bind_pop hu fun _ _ hu => (hu.setSp _).farTransfer _ _

/-- A delivery clears IF, TF and AC, and no other flag (R722). -/
theorem deliver (v : BitVec 8) (ret : BitVec 32) : s.KeptBy (t.deliver v ret) :=
  .bind_state (h.sampleMode.push .s16 _) fun _ hu =>
  .bind_state (hu.push .s16 _) fun _ hu =>
  .bind_state (hu.push .s16 _) fun _ hu =>
  .bind_value fun _ => .bind_value fun _ =>
  .bind_state ((hu.setFlags ((Flags.maskTraps_virt _).trans hu.virt)).setSelector .cs _) fun _ hu => .ok (hu.setEip _)

theorem softInterrupt (v : BitVec 8) : s.KeptBy (t.softInterrupt v) :=
  .bind_state (h.sampleMode.deliver v _) fun _ hu => .ok (hu.setIntDepth _)

theorem interruptReturn (os : Size) : s.KeptBy (t.interruptReturn os) := by
  cases os with
  | s16 =>
    exact .bind_pop h.sampleMode fun _ _ hu => .bind_pop hu fun _ _ hu => .bind_pop hu fun _ _ hu =>
      .bind_state (hu.farTransfer _ _) fun _ hu => .ok ((hu.setFlags ((Flags.load16_virt _ _).trans hu.virt)).setIntDepth _)
  | s32 =>
    exact .bind_pop h.sampleMode fun _ _ hu => .bind_pop hu fun _ _ hu => .bind_pop hu fun _ _ hu =>
      .bind_state (hu.farTransfer _ _) fun _ hu => .ok ((hu.setFlags ((Flags.loadIretd_virt _ _).trans hu.virt)).setIntDepth _)

end State.Keeps

/-! ### The shapes that instructions share -/

section
variable {s : State} {w : Width} {os : Size} {dst : Rm} {src : Operand}

theorem State.binary_keptBy {f : BitVec w.bits → BitVec w.bits → BitVec w.bits × Flags}
    (hf : ∀ a b, (f a b).2.virt = s.flags.virt) : s.KeptBy (s.binary w dst src f) :=
  .bind_value fun a => .bind_value fun b =>
    .bind_state ((State.Keeps.refl s).writeRm w dst _) fun _ ht => .ok (ht.setFlags (hf a b))

theorem State.compare_keptBy {f : BitVec w.bits → BitVec w.bits → BitVec w.bits × Flags}
    (hf : ∀ a b, (f a b).2.virt = s.flags.virt) : s.KeptBy (s.compare w dst src f) :=
  .bind_value fun a => .bind_value fun b => .ok ((State.Keeps.refl s).setFlags (hf a b))

theorem State.unary_keptBy {f : BitVec w.bits → BitVec w.bits × Flags} (hf : ∀ a, (f a).2.virt = s.flags.virt) :
    s.KeptBy (s.unary w dst f) :=
  .bind_value fun a => .bind_state ((State.Keeps.refl s).writeRm w dst _) fun _ ht => .ok (ht.setFlags (hf a))

theorem State.shiftRm_keptBy {count : ShiftCount} {f : Nat → BitVec w.bits → BitVec w.bits × Flags}
    (hf : ∀ cnt a, (f cnt a).2.virt = s.flags.virt) : s.KeptBy (s.shiftRm w dst count f) :=
  .bind_value fun a => .ite (.ok (.refl s)) <|
    .bind_state ((State.Keeps.refl s).writeRm w dst _) fun _ ht => .ok (ht.setFlags (hf _ a)).drawn

theorem State.bitModify_keptBy (off : BitOff) (f : BitVec os.width.bits → BitVec os.width.bits → BitVec os.width.bits) :
    s.KeptBy (s.bitModify os dst off f) :=
  .bind_value fun _ => .bind_state ((State.Keeps.refl s).writeAt os.width _ _) fun _ ht =>
    .ok (ht.setFlags (Flags.bitFlags_virt _ _ _)).drawn

theorem State.imulInto_keeps (dst : Reg) (x y : BitVec w.bits) : s.Keeps (s.imulInto w dst x y) :=
  (((State.Keeps.refl s).setReg w dst _).setFlags (Flags.mulFlags_virt _ _ _)).drawn

theorem State.scanInto_keeps (dst : Reg) (i : Option Nat) : s.Keeps (s.scanInto w dst i) :=
  (((State.Keeps.refl s).setReg w dst _).setFlags (Flags.scanFlags_virt _ _ _)).drawn
end

/-! ### The bodies of the string instructions (R584 to R591) -/

section
variable (w : Width) (as : Size) (seg : SegReg) (s : State)

theorem movsBody_keptBy : s.KeptBy (movsBody w as seg s) :=
  .bind_value fun v => .bind_state ((State.Keeps.refl s).memWrite w _ v) fun _ ht =>
    .ok ((ht.stepIndex as w _).stepIndex as w _)

theorem cmpsBody_keptBy : s.KeptBy (cmpsBody w as seg s) :=
  .bind_value fun a => .bind_value fun b =>
    .ok ((((State.Keeps.refl s).setFlags (s.flags.subFlags_virt a b false)).stepIndex as w _).stepIndex as w _)

theorem stosBody_keptBy : s.KeptBy (stosBody w as s) :=
  .bind_state ((State.Keeps.refl s).memWrite w _ _) fun _ ht => .ok (ht.stepIndex as w _)

theorem lodsBody_keptBy : s.KeptBy (lodsBody w as seg s) :=
  .bind_value fun v => .ok (((State.Keeps.refl s).setReg w _ v).stepIndex as w _)

theorem scasBody_keptBy : s.KeptBy (scasBody w as s) :=
  .bind_value fun b => .ok (((State.Keeps.refl s).setFlags (s.flags.subFlags_virt _ b false)).stepIndex as w _)

theorem insBody_keptBy : s.KeptBy (insBody w as s) := by
  unfold insBody
  split
  · exact .error _
  · exact .bind_state (((State.Keeps.refl s).ioRead _ w).memWrite w _ _) fun _ ht => .ok (ht.stepIndex as w _)

theorem outsBody_keptBy : s.KeptBy (outsBody w as seg s) :=
  .bind_value fun v => .ok (((State.Keeps.refl s).ioWrite _ w v).stepIndex as w _)
end

/-! ## Outcomes -/

/-- An outcome is a state with a property `P`, a fault before any change, or a fault that leaves a state with a property `Q`
(R581); it is no refusal. -/
def OutcomeIs (P Q : State → Prop) : Host.Outcome State Fault Refusal → Prop
  | .next t => P t
  | .fault (.precise _) => True
  | .fault (.inRepetition _ t) => Q t
  | .refused _ => False

/-- Halted only with IF = 1 (R640, R721). -/
def State.HaltOk (s : State) : Prop := s.halted = true → s.flags.ifl = true

/-- What a unit that completes does to the state: the frame is kept, and it halts only with IF = 1. -/
structure State.Completes (s t : State) : Prop extends State.Frame s t where
  haltOk : t.HaltOk

/-- What the end of a cycle leaves: the transient state is discarded as well (R99, R211). -/
structure State.Settles (s t : State) : Prop extends State.Completes s t where
  cyc : t.cyc = .empty

theorem State.HaltOk.of_false {s : State} (h : s.halted = false) : s.HaltOk := fun h' => absurd (h.symm.trans h') nofun

theorem State.Keeps.completes {s t : State} (h : s.Keeps t) (hs : s.halted = false) : s.Completes t :=
  ⟨h.toFrame, .of_false (h.halted.trans hs)⟩

theorem State.Completes.settles {s t : State} (h : s.Completes t) : s.Settles t.endCycle :=
  ⟨⟨h.toFrame.setCyc _, h.haltOk⟩, rfl⟩

/-- What one unit of an instruction may do, from a state that is not halted. -/
abbrev State.ExecOk (s : State) (o : Host.Outcome State Fault Refusal) : Prop := OutcomeIs s.Completes s.Settles o

namespace State.ExecOk
variable {s : State} (hs : s.halted = false)
include hs

theorem next {t : State} (h : s.Keeps t) : s.ExecOk (.next t) := h.completes hs

theorem finish {x : Except FaultKind State} (h : s.KeptBy x) : s.ExecOk (finish x) := by
  cases x with
  | ok t => exact (h t rfl).completes hs
  | error k => trivial

/-- The form of most instructions: a computation, and EIP to the next instruction (R61). -/
theorem finish_advance {x : Except FaultKind State} (h : s.KeptBy x) :
    s.ExecOk (Machine.finish (x >>= fun t => .ok t.advance)) := finish hs (.bind_state h fun _ ht => .ok ht.advance)

/-- The same with a draw number used up (D27). -/
theorem finish_drawn_advance {x : Except FaultKind State} (h : s.KeptBy x) :
    s.ExecOk (Machine.finish (x >>= fun t => .ok t.drawn.advance)) :=
  finish hs (.bind_state h fun _ ht => .ok ht.drawn.advance)

/-- A value is computed, and the state after it. -/
theorem finish_value {α : Type} {x : Except FaultKind α} {f : α → State} (h : ∀ a, s.Keeps (f a)) :
    s.ExecOk (Machine.finish (x >>= fun a => .ok (f a))) := finish hs (.bind_value fun a => .ok (h a))

section
variable {body : State → Except FaultKind State} (hb : ∀ u : State, u.KeptBy (body u))
include hb

/-- A repetition keeps what each of its iterations keeps; a faulting iteration leaves the ones before it (R580, R581). -/
theorem repeatLoop (as : Size) (stop : State → Bool) (n : Nat) {t : State} (ht : s.Keeps t) :
    s.ExecOk (repeatLoop body as stop n t) := by
  induction n generalizing t with
  | zero => exact next hs ht.advance
  | succ n ih =>
    unfold Machine.repeatLoop
    split
    · exact (ht.completes hs).settles
    · next u hu =>
      have hc : s.Keeps (u.decCount as) := (ht.trans (hb t u hu)).decCount as
      split
      · exact next hs hc.advance
      · exact ih hc

theorem runOnce : s.ExecOk (runOnce body s) := finish_advance hs (hb s)

theorem runRepeat (as : Size) (stop : State → Bool) : s.ExecOk (runRepeat body as stop s) :=
  repeatLoop hs hb as stop _ (.refl s)

theorem runString (rep : Bool) (as : Size) : s.ExecOk (runString rep as body s) := by
  cases rep with
  | true => exact runRepeat hs hb as _
  | false => exact runOnce hs hb

theorem runCompare (rep : CmpRep) (as : Size) : s.ExecOk (runCompare rep as body s) := by
  cases rep with
  | once => exact runOnce hs hb
  | repe => exact runRepeat hs hb as _
  | repne => exact runRepeat hs hb as _

end

end State.ExecOk

/-! ## Every instruction -/

/-- Each of the bytes of R210 changes the transient state only (R211). -/
theorem exec_of_isPrefix {i : Instr} (h : i.isPrefix = true) (s : State) : ∃ p, exec i s = .next (s.setPfx p) := by
  unfold Instr.isPrefix at h
  split at h
  case h_12 => cases h
  all_goals exact ⟨_, rfl⟩

/-- Every unit does only what `State.ExecOk` allows: it is not refused. -/
theorem exec_ok (i : Instr) {s : State} (hs : s.halted = false) : s.ExecOk (exec i s) := by
  have hr := State.Keeps.refl s
  cases i with
  -- the bytes of R210
  | prefixEs | prefixCs | prefixSs | prefixDs | prefixFs | prefixGs | prefixOpSize | prefixAddrSize | prefixLock | prefixRepne
  | prefixRep => exact ⟨hr.toFrame.setCyc _, .of_false hs⟩
  -- arithmetic and logic, two operands
  | add w d x | adc w d x => exact .finish_advance hs (State.binary_keptBy fun a b => s.flags.addFlags_virt a b _)
  | sub w d x | sbb w d x => exact .finish_advance hs (State.binary_keptBy fun a b => s.flags.subFlags_virt a b _)
  | and w d x | or w d x | xor w d x =>
    exact .finish_drawn_advance hs (State.binary_keptBy fun a b => s.flags.withLogic_virt s.draws _)
  | cmp w d x => exact .finish_advance hs (State.compare_keptBy fun a b => s.flags.subFlags_virt a b _)
  | test w d x => exact .finish_drawn_advance hs (State.compare_keptBy fun a b => s.flags.withLogic_virt s.draws _)
  -- one operand
  | inc w d =>
    exact .finish_advance hs (State.unary_keptBy fun a => (Flags.keepCarry_virt _ _).trans (s.flags.addFlags_virt a 1 _))
  | dec w d =>
    exact .finish_advance hs (State.unary_keptBy fun a => (Flags.keepCarry_virt _ _).trans (s.flags.subFlags_virt a 1 _))
  | neg w d => exact .finish_advance hs (State.unary_keptBy fun a => s.flags.subFlags_virt 0 a _)
  | not w d => exact .finish_advance hs (State.unary_keptBy fun _ => rfl)
  -- multiply and divide
  | mul w x | imul w x =>
    exact .finish_value hs fun b => ((hr.setHalves w _ _).setFlags (s.flags.mulFlags_virt _ _)).drawn.advance
  | imulReg os d x | imulImm os d x v => exact .finish_value hs fun y => (State.imulInto_keeps d _ _).advance
  | div w x | idiv w x =>
    exact .finish hs <| .bind_value fun d => .ite (.error _) <| .ite (.error _) <|
      .ok ((hr.setHalves w _ _).setFlags (s.flags.divFlags_virt _)).drawn.advance
  -- decimal adjust
  | daa => exact .next hs ((hr.setReg .w8 _ _).setFlags (s.flags.daa_virt _ _)).drawn.advance
  | das => exact .next hs ((hr.setReg .w8 _ _).setFlags (s.flags.das_virt _ _)).drawn.advance
  | aaa => exact .next hs ((hr.setReg .w16 _ _).setFlags (s.flags.aaa_virt _ _)).drawn.advance
  | aas => exact .next hs ((hr.setReg .w16 _ _).setFlags (s.flags.aas_virt _ _)).drawn.advance
  | aam base =>
    exact .finish hs <| .ite (.error _) <|
      .ok ((hr.setHalves .w8 _ _).setFlags (s.flags.asciiFlags_virt _ _)).drawn.advance
  | aad base => exact .next hs ((hr.setHalves .w8 _ _).setFlags (s.flags.asciiFlags_virt _ _)).drawn.advance
  -- shifts and rotates
  | rol w d c | ror w d c | rcl w d c | rcr w d c =>
    exact .finish_advance hs (State.shiftRm_keptBy fun cnt a => s.flags.rotate_virt s.draws _ _ cnt a)
  | shl w d c | shr w d c | sar w d c =>
    exact .finish_advance hs (State.shiftRm_keptBy fun cnt a => s.flags.shift_virt s.draws _ _ cnt a)
  | shld os d g c | shrd os d g c =>
    exact .finish_advance hs (State.shiftRm_keptBy fun cnt a => s.flags.doubleShift_virt s.draws cnt a _ _)
  -- bit test and scan
  | bt os d o => exact .finish_value hs fun x => (hr.setFlags (s.flags.bitFlags_virt _ _)).drawn.advance
  | bts os d o | btr os d o | btc os d o => exact .finish_advance hs (State.bitModify_keptBy o _)
  | bsf os d x | bsr os d x => exact .finish_value hs fun v => (State.scanInto_keeps d _).advance
  -- moves
  | mov w d x => exact .finish hs <| .bind_value fun v => .bind_state (hr.writeRm w d v) fun _ ht => .ok ht.advance
  | movAccMoffs w m => exact .finish_value hs fun v => (hr.setReg w .eax v).advance
  | movMoffsAcc w m => exact .finish_advance hs (hr.memWrite w _ _)
  | movFromSeg os d r => exact .finish_advance hs (hr.storeWord os d _)
  | movToSeg r x => exact .finish hs <| .bind_value fun v => .bind_state (hr.setSelector r v) fun _ ht => .ok ht.advance
  | movFromCr d c => exact .next hs (hr.setReg .w32 d _).advance
  | movToCr c g => exact .next hs (hr.setCr c _).advance
  | xchg w x g =>
    exact .finish hs <| .bind_value fun a => .bind_state (hr.writeRm w x _) fun _ ht => .ok (ht.setReg w g a).advance
  | lea os d m => exact .next hs (hr.setReg os.width d _).advance
  | movzxByte os d x | movzxWord os d x | movsxByte os d x | movsxWord os d x =>
    exact .finish_value hs fun v => (hr.setReg os.width d _).advance
  -- far-pointer loads
  | lds os d m | les os d m | lss os d m | lfs os d m | lgs os d m => exact .finish_advance hs (hr.loadFar os _ d m)
  -- conversions and accumulator moves
  | cbw os => exact .next hs (hr.extendAcc os).advance
  | cwd os => exact .next hs (hr.setReg os.width .edx _).advance
  | lahf => exact .next hs (hr.setReg .w8 .esp _).advance
  | sahf => exact .next hs (hr.setFlags (s.flags.loadAh_virt _)).advance
  | xlat as r => exact .finish_value hs fun v => (hr.setReg .w8 .eax v).advance
  -- SETcc
  | seto d | setno d | setb d | setae d | sete d | setne d | setbe d | seta d | sets d | setns d | setp d | setnp d | setl d
  | setge d | setle d | setg d => exact .finish hs (hr.setCond _ d)
  -- stack
  | push os x => exact .finish hs <| .bind_value fun v => .bind_state (hr.push os v) fun _ ht => .ok ht.advance
  | pushImm os v | pushf os => exact .finish_advance hs (hr.push os _)
  | pushEs os | pushCs os | pushSs os | pushDs os | pushFs os | pushGs os => exact .finish hs (hr.pushSeg os _)
  | pop os g => exact .finish hs <| .bind_pop hr fun v _ ht => .ok (ht.setReg os.width g v).advance
  | popRm os d =>
    exact .finish hs <| .bind_pop hr fun v _ ht => .bind_state (ht.writeRm os.width d v) fun _ hu => .ok hu.advance
  | popEs os | popSs os | popDs os | popFs os | popGs os => exact .finish hs (hr.popSeg os _)
  | pusha os => exact .finish_advance hs (hr.pushAll os _)
  | popa os => exact .finish_advance hs (hr.popAll os _)
  | popf =>
    exact .finish hs <| .bind_pop hr fun v _ ht => .ok (ht.setFlags ((Flags.load16_virt _ v).trans ht.virt)).advance
  | popfd =>
    exact .finish hs <| .bind_pop hr fun v _ ht => .ok (ht.setFlags ((Flags.loadPopfd_virt _ v).trans ht.virt)).advance
  | enter os alloc level =>
    exact .finish hs <| .bind_state (hr.push os _) fun _ ht => .bind_state (ht.enterLevels os _ _ _) fun u hu =>
      .ok ((hu.setReg u.sw.width .ebp _).setSp _).advance
  | leave os => exact .finish hs <| .bind_pop (hr.setSp _) fun v _ ht => .ok (ht.setReg os.width .ebp v).advance
  -- conditional branches and loops
  | jo os r | jno os r | jb os r | jae os r | je os r | jne os r | jbe os r | ja os r | js os r | jns os r | jp os r | jnp os r
  | jl os r | jge os r | jle os r | jg os r | jmpRel os r => exact .next hs (hr.branch _ os _)
  | jcxz os as r => exact .next hs (hr.branch _ os _)
  | loop os as r | loope os as r | loopne os as r => exact .next hs (hr.loopBranch _ os as r)
  -- jumps, calls, returns
  | jmpInd os x => exact .finish_value hs fun v => hr.sampleMode.setNearEip os _
  | jmpFar os off sel => exact .finish hs (hr.sampleMode.farTransfer sel off)
  | jmpFarInd os m => exact .finish hs <| .bind_value fun _ => hr.sampleMode.farTransfer _ _
  | callRel os r => exact .finish hs (hr.sampleMode.callNear os _)
  | callInd os x => exact .finish hs <| .bind_value fun _ => hr.sampleMode.callNear os _
  | callFar os off sel => exact .finish hs (hr.sampleMode.callFar os sel off)
  | callFarInd os m => exact .finish hs <| .bind_value fun _ => hr.sampleMode.callFar os _ _
  | ret os | retImm os v => exact .finish hs (hr.sampleMode.returnNear os _)
  | retf os | retfImm os v => exact .finish hs (hr.sampleMode.returnFar os _)
  -- software interrupts and interrupt return
  | int v => exact .finish hs (hr.softInterrupt v)
  | int3 => exact .finish hs (hr.softInterrupt 3)
  | into =>
    show s.ExecOk (if s.flags.ofl then _ else _)
    split
    · exact .finish hs (hr.softInterrupt 4)
    · exact .next hs hr.sampleMode.advance
  | iret os => exact .finish hs (hr.interruptReturn os)
  -- strings
  | movsb as r rep => exact .runString hs (movsBody_keptBy .w8 as r) rep as
  | movsw os as r rep => exact .runString hs (movsBody_keptBy os.width as r) rep as
  | cmpsb as r rep => exact .runCompare hs (cmpsBody_keptBy .w8 as r) rep as
  | cmpsw os as r rep => exact .runCompare hs (cmpsBody_keptBy os.width as r) rep as
  | stosb as rep => exact .runString hs (stosBody_keptBy .w8 as) rep as
  | stosw os as rep => exact .runString hs (stosBody_keptBy os.width as) rep as
  | lodsb as r rep => exact .runString hs (lodsBody_keptBy .w8 as r) rep as
  | lodsw os as r rep => exact .runString hs (lodsBody_keptBy os.width as r) rep as
  | scasb as rep => exact .runCompare hs (scasBody_keptBy .w8 as) rep as
  | scasw os as rep => exact .runCompare hs (scasBody_keptBy os.width as) rep as
  | insb as rep => exact .runString hs (insBody_keptBy .w8 as) rep as
  | insw os as rep => exact .runString hs (insBody_keptBy os.width as) rep as
  | outsb as r rep => exact .runString hs (outsBody_keptBy .w8 as r) rep as
  | outsw os as r rep => exact .runString hs (outsBody_keptBy os.width as r) rep as
  -- port I/O
  | inImm w p => exact .next hs (hr.inPort w _)
  | inDx w => exact .next hs (hr.inPort w _)
  | outImm w p => exact .next hs (hr.ioWrite _ w _).advance
  | outDx w => exact .next hs (hr.ioWrite _ w _).advance
  -- flag control
  | clc | stc | cmc | cli | sti | cld | std => exact .next hs (hr.setFlags (by rfl)).advance
  -- no-operations and halt
  | nop | wait => exact .next hs hr.advance
  | hlt =>
    show s.ExecOk (finish (if s.flags.ifl then _ else _))
    split
    · next hif => exact ⟨hr.advance.toFrame.setHalted true, fun _ => hif⟩
    · trivial
  -- system registers
  | lgdt os m => exact .finish_value hs fun v => (hr.setGdtr v).advance
  | lidt os m => exact .finish_value hs fun v => (hr.setIdtr v).advance
  | sgdt os m | sidt os m => exact .finish_advance hs (hr.writeTable os m _)
  | lmsw x => exact .finish_value hs fun v => (hr.setCr .cr0 _).advance
  | smsw os d =>
    cases d with
    | mem m => exact .finish_advance hs (hr.memWrite .w16 _ _)
    | reg r =>
      cases os with
      | s16 => exact .finish hs (.ok (hr.setReg .w16 r _).advance)
      | s32 => exact .finish hs (.ok (hr.setReg .w32 r _).drawn.advance)
  | clts => exact .next hs (hr.setCr .cr0 _).advance
  -- invalid encodings
  | invalid c | x87Escape op => trivial

/-! ## The cycle -/

/-- An outcome keeps properties that are weaker. -/
theorem OutcomeIs.imp {P P' Q Q' : State → Prop} {o : Host.Outcome State Fault Refusal} (h : OutcomeIs P Q o)
    (hP : ∀ t, P t → P' t) (hQ : ∀ t, Q t → Q' t) : OutcomeIs P' Q' o := by
  match o, h with
  | .next t, h => exact hP t h
  | .fault (.precise _), _ => trivial
  | .fault (.inRepetition _ t), h => exact hQ t h

theorem State.Frame.settles {s t u : State} (h : s.Frame t) (h' : t.Settles u) : s.Settles u :=
  ⟨⟨h.trans h'.toFrame, h'.haltOk⟩, h'.cyc⟩

/-- The end of the cycle empties the transient state of an instruction that completed. -/
theorem endOutcome_settles {s : State} {o : Host.Outcome State Fault Refusal} (h : s.ExecOk o) :
    OutcomeIs s.Settles s.Settles (endOutcome o) := by
  match o, h with
  | .next t, h => exact State.Completes.settles h
  | .fault (.precise _), _ => trivial
  | .fault (.inRepetition _ t), h => exact h

/-- The units before the last change the transient state only, so a whole instruction does what its last unit does. -/
theorem runUnits_settles {s : State} (k : FaultKind) (n : Nat) (bs : List Byte) {t : State} (h : s.Frame t)
    (ht : t.halted = false) : OutcomeIs s.Settles s.Settles (runUnits k n bs t) := by
  induction n generalizing bs t with
  | zero => trivial
  | succ n ih =>
    unfold runUnits
    split
    · trivial
    · next i rest _ =>
      set u := t.readUnit (bs.take (bs.length - rest.length))
      have hu : s.Frame u := h.setCyc _
      split
      · next hi =>
        obtain ⟨p, hp⟩ := exec_of_isPrefix hi u
        simp only [hp]
        exact ih rest (hu.setCyc _) ht
      · exact (endOutcome_settles (exec_ok i (s := u) ht)).imp (fun _ => hu.settles) fun _ => hu.settles

/-- A state that keeps the invariant, with the frame: what every cycle leaves. -/
structure State.KeepsInv (s t : State) : Prop extends State.Frame s t where
  inv : s.Inv → t.Inv

theorem State.Completes.keepsInv {s t : State} (h : s.Completes t) (hc : s.cyc = .empty → t.cyc = .empty) : s.KeepsInv t := by
  refine ⟨h.toFrame, fun ⟨hp, hcyc, hwf, hb, _, hvm⟩ => ?_⟩
  have hmem := h.mem ⟨hwf, hb⟩
  have hv : t.flags.vm = s.flags.vm := congrArg Prod.fst h.virt
  exact ⟨h.params ▸ hp, hc hcyc, hmem.1, hmem.2, h.haltOk, hv.trans hvm⟩

theorem State.Settles.keepsInv {s t : State} (h : s.Settles t) : s.KeepsInv t := h.toCompletes.keepsInv fun _ => h.cyc

/-- The delivery of the latched interrupt wakes the machine (R721). -/
theorem State.deliverLatched_keepsInv {s t : State} (h : s.deliverLatched = .ok t) : s.KeepsInv t := by
  obtain ⟨u, hu, ht⟩ := bind_ok.mp h
  cases ht
  have hk : s.Keeps u := (State.Keeps.refl s).deliver s.latch.vector s.eip u hu
  refine State.Completes.keepsInv ⟨((hk.setLatch _).toFrame.setHalted false).setIntDepth _, .of_false rfl⟩ fun hs => ?_
  exact hk.cyc.trans hs

/-- One step: a delivery, nothing while halted, or one instruction. It is no refusal, and its next state, or the one that a fault
in a repetition leaves, keeps the frame and the invariant. -/
theorem step_keepsInv (s : State) : OutcomeIs s.KeepsInv s.KeepsInv (step s) := by
  unfold step cycle
  split
  · cases hd : s.deliverLatched with
    | ok t => exact State.deliverLatched_keepsInv hd
    | error k => trivial
  · split
    · exact ⟨.refl s, id⟩
    · next hs =>
      exact (runUnits_settles (t := s.startCycle) _ _ _ ((State.Frame.refl s).setCyc _) (Bool.eq_false_of_not_eq_true hs)).imp
        (fun _ => State.Settles.keepsInv) fun _ => State.Settles.keepsInv

/-! ## The obligations -/

/-- Settles O13: a step, and a fault in a repetition, keep the invariant; any other fault leaves the state before the cycle. -/
theorem stepKeepsInv : Obligations.StepKeepsInv := by
  unfold Obligations.StepKeepsInv
  constructor
  · intro s t hs hstep
    have h := step_keepsInv s
    rw [hstep] at h
    exact h.inv hs
  · intro s f hs hstep
    have h := step_keepsInv s
    rw [hstep] at h
    cases f with
    | precise k => exact hs
    | inRepetition k t => exact h.inv hs

/-- Settles O15, by what a step keeps: a refusal is no outcome of it. -/
theorem stepNeverRefuses : Obligations.StepNeverRefuses := by
  unfold Obligations.StepNeverRefuses
  constructor
  · intro s r hstep
    have h := step_keepsInv s
    rwa [hstep] at h
  · intro s t hstep
    have h := step_keepsInv s
    rw [hstep] at h
    obtain ⟨hp, hv, -⟩ := h.toFrame
    obtain ⟨hvm, hvif, hvip⟩ : _ ∧ _ ∧ _ := by simpa only [Flags.virt, Prod.mk.injEq] using hv
    exact ⟨hp, hvm, hvif, hvip⟩

/-- Settles O14: each part of the invariant computes at reset. -/
theorem resetMeetsInv : Obligations.ResetMeetsInv :=
  ⟨by decide, rfl, reset_mem_wf, rfl, nofun, rfl⟩

end Sys2Proof.Machine
end

section
/-! SUPPORT. Values of the state: those of reset, which views the registers have, and where the bits of FLAGS are. -/

namespace Sys2Proof.Machine

/-! ## Reset and flag control -/

theorem reset_toWord : State.reset.flags.toWord = 0x00000240 := by decide

/-- Settles O16: every item of the table of R110 computes. -/
theorem resetValues : Obligations.ResetValues := by
  intro s
  refine ⟨rfl, rfl, reset_toWord, fun r => ?_, rfl, rfl, fun c => ?_, rfl, rfl, rfl, rfl, rfl, rfl, rfl⟩
  · cases r <;> rfl
  · cases c <;> rfl

/-- Settles O59: each of these instructions is one update of FLAGS and the advance, and HLT tests IF first. -/
theorem flagControlResults : Obligations.FlagControlResults := by
  refine ⟨fun s => ⟨rfl, rfl, rfl, rfl, rfl, rfl, rfl, rfl, rfl⟩, fun s => ⟨fun h => ?_, fun h => ?_⟩⟩
  · simp [exec, execHlt, finish, h]
  · simp [exec, execHlt, finish, h]

/-! ## The views of the registers (R52 to R55) -/

/-- Settles O23: the views share one storage, and a write keeps the bits outside its view. -/
theorem registerViews : Obligations.RegisterViews := by
  intro s
  refine ⟨fun w r v => ⟨s.reg_setReg_self w r v, rfl⟩, ⟨rfl, rfl, rfl, rfl, rfl, rfl, rfl, rfl⟩, fun r => ⟨rfl, ?_⟩,
    ⟨rfl, rfl, rfl, rfl, rfl, rfl, rfl, rfl⟩, fun r v => ⟨?_, fun q hq => ?_⟩, fun r v => ⟨?_, fun q hq => ?_⟩,
    fun v => ⟨rfl, rfl, rfl, rfl, rfl, rfl, rfl, rfl⟩⟩
  · exact BitVec.setWidth_eq_extractLsb' (v := 32) (by decide)
  · exact (Regs.get_set s.regs r r v).trans (if_pos rfl)
  · exact Regs.get_write_of_ne s.regs .w32 r q v hq
  · exact (Regs.get_set s.regs r r _).trans (if_pos rfl)
  · exact Regs.get_write_of_ne s.regs .w16 r q v hq

/-! ## The bits of FLAGS (R65, R66) -/

/-- Bit k of FLAGS: the named flag there, or 0 (R65, R66). -/
def Flags.bit (f : Flags) : Nat → Bool
  | 0 => f.cf
  | 2 => f.pf
  | 4 => f.af
  | 6 => f.zf
  | 7 => f.sf
  | 8 => f.tf
  | 9 => f.ifl
  | 10 => f.df
  | 11 => f.ofl
  | 12 => f.iopl.getLsbD 0
  | 13 => f.iopl.getLsbD 1
  | 14 => f.nt
  | 16 => f.rf
  | 17 => f.vm
  | 18 => f.ac
  | 19 => f.vif
  | 20 => f.vip
  | 21 => f.id
  | _ => false

theorem Flags.toWord_getLsbD (f : Flags) (k : Nat) : f.toWord.getLsbD k = f.bit k := by
  by_cases hk : k < 32
  · simp only [Flags.toWord, BitVec.getLsbD_append]
    interval_cases k <;> simp [Flags.bit]
  · obtain ⟨j, rfl⟩ := Nat.exists_eq_add_of_le' (Nat.le_of_not_lt hk)
    exact BitVec.getLsbD_of_ge _ _ (Nat.le_add_left 32 j)

/-- A word is FLAGS where its 32 bits are. -/
theorem Flags.toWord_eq {f : Flags} {v : BitVec 32} (h : ∀ k < 32, f.bit k = v.getLsbD k) : f.toWord = v :=
  BitVec.eq_of_getLsbD_eq fun k hk => (f.toWord_getLsbD k).trans (h k hk)

/-- Settles O28: each mask is read bit by bit. -/
theorem flagWord : Obligations.FlagWord := by
  refine ⟨fun f => ?_, fun f => ⟨rfl, rfl, fun v => ?_, fun v => ?_, fun v => ?_, fun v => ?_⟩⟩
  · simp only [f.toWord_getLsbD, Flags.bit, true_and]
    constructor
    · refine BitVec.eq_of_getLsbD_eq fun k hk => ?_
      rw [BitVec.getLsbD_extractLsb', f.toWord_getLsbD]
      interval_cases k <;> rfl
    · refine BitVec.eq_of_getLsbD_eq fun k hk => ?_
      rw [BitVec.getLsbD_and, f.toWord_getLsbD]
      interval_cases k <;> simp [Flags.bit]
  all_goals
    refine Flags.toWord_eq fun k hk => ?_
    simp only [BitVec.getLsbD_or, BitVec.getLsbD_and, f.toWord_getLsbD, BitVec.getLsbD_setWidth]
    interval_cases k <;> simp [Flags.bit, Flags.load16, Flags.loadPopfd, Flags.loadIretd, Flags.loadAh]

end Sys2Proof.Machine
end

section
/-! SUPPORT. The order of a cycle and the host's actions: when a step delivers, sleeps or executes, what a delivery answers, and
what the memory service reads and writes. -/

namespace Sys2Proof.Machine

/-! ## The start of a cycle (R200) -/

/-- No interrupt is delivered exactly where the test at the start of a cycle fails (R200 step 1, R720). -/
theorem State.deliverable_eq_false {s : State} : s.deliverable = false ↔ s.NoDelivery := by
  simp [State.deliverable, State.NoDelivery, Bool.and_eq_false_imp, or_iff_not_imp_left]

/-- With no delivery, a machine that runs executes units from EIP on (R200 step 3). -/
theorem step_of_running {s : State} (hd : s.NoDelivery) (hh : s.halted = false) :
    step s = runUnits s.windowFault maxLength s.window s.startCycle := by
  simp [step, cycle, State.deliverable_eq_false.mpr hd, hh]

/-- The last unit is executed with its bytes read, and ends the cycle. -/
theorem runUnits_instruction {k : FaultKind} {n : Nat} {bs rest : List Byte} {s : State} {i : Instr}
    (hdec : decode s.cyc.csz s.cyc.pfx bs = some (i, rest)) (hi : i.isPrefix = false) :
    runUnits k (n + 1) bs s = endOutcome (exec i (s.readUnit (bs.take (bs.length - rest.length)))) := by
  simp [runUnits, hdec, hi]

/-- Settles O8: the first unit read is the instruction. -/
theorem stepRunsInstruction : Obligations.StepRunsInstruction := by
  intro s i rest hd hh hdec hi
  rw [step_of_running hd hh]
  exact runUnits_instruction (s := s.startCycle) hdec hi

/-! ## Delivery (R722) -/

theorem truncTo_sub (sz : Size) (v d : BitVec 32) : truncTo sz (truncTo sz v - d) = truncTo sz (v - d) := by
  cases sz with
  | s32 => rfl
  | s16 => simp [truncTo, BitVec.toNat_eq, BitVec.toNat_sub]

theorem sizeStep_eq (n : Size) : sizeStep n = BitVec.ofNat 32 n.width.bytes := by cases n <;> rfl

/-- The slots below a value that has been pushed are the ones after its own (R370). -/
theorem State.slot_pushed (s : State) (n : Size) (v : BitVec n.width.bits) (k : Nat) :
    (s.pushed n v).slot n k = s.slot n (k + 1) := by
  have hsw : (s.pushed n v).sw = s.sw := by simp [State.sw]
  have hsp : (s.pushed n v).sp = truncTo s.sw (s.sp - sizeStep n) := by
    rw [← State.sp_setSp]
    simp [State.sp, State.sw, State.reg]
  have hstep : s.sp - sizeStep n - BitVec.ofNat 32 (k * n.width.bytes) = s.sp - BitVec.ofNat 32 ((k + 1) * n.width.bytes) := by
    rw [sizeStep_eq, sub_sub, ← BitVec.ofNat_add, Nat.succ_mul, Nat.add_comm]
  simp [State.slot, State.linear, hsw, hsp, truncTo_sub, hstep]

@[simp] theorem State.slotOk_pushed (s : State) (n : Size) (v : BitVec n.width.bits) (k : Nat) :
    (s.pushed n v).slotOk n k = s.slotOk n (k + 1) := by
  simp [State.slotOk, State.slot_pushed, State.mapped]

theorem State.mapped_add (s : State) (lin : BitVec 32) (m n : Nat) :
    s.mapped lin (m + n) = (s.mapped lin m && s.mapped (lin + BitVec.ofNat 32 m) n) := by
  simp [State.mapped, List.range_add, BitVec.add_assoc, ← BitVec.ofNat_add, Function.comp_def]

@[simp] theorem State.frameBuilt_params (s : State) (ret : BitVec 32) : (s.frameBuilt ret).params = s.params := by
  simp [State.frameBuilt, State.sampleMode]

/-- A delivery succeeds exactly where its slots and the IVT entry are inside memory and CS can take the selector there. -/
theorem State.deliver_iff {s t : State} {v : BitVec 8} {ret : BitVec 32} :
    s.deliver v ret = .ok t ↔ s.deliverOk v ret = true ∧ t = s.delivered v ret := by
  have hm : ∀ lin n, (s.frameBuilt ret).mapped lin n = s.mapped lin n := fun lin n => by simp [State.mapped]
  have hent : s.mapped (ivtEntry v) 4 = (s.mapped (ivtEntry v) 2 && s.mapped (ivtEntry v + 2) 2) :=
    s.mapped_add (ivtEntry v) 2 2
  simp only [State.deliver, State.deliverOk, bind_ok, State.push_iff, Bool.and_eq_true, hent]
  constructor
  · rintro ⟨a, ⟨h1, rfl⟩, b, ⟨h2, rfl⟩, c, ⟨h3, rfl⟩, ip, hip, cs, hcs, u, hu, ht⟩
    simp only [State.slotOk_pushed, State.pushed_segs] at h2 h3 hip hcs hu
    obtain ⟨m1, rfl⟩ := (State.memRead_iff (w := .w16)).mp hip
    obtain ⟨m2, rfl⟩ := (State.memRead_iff (w := .w16)).mp hcs
    obtain ⟨hsel, rfl⟩ := State.setSelector_iff.mp hu
    exact ⟨⟨⟨⟨⟨h1, h2⟩, h3⟩, (hm _ _).symm.trans m1, (hm _ _).symm.trans m2⟩, hsel⟩, (Except.ok.inj ht).symm⟩
  · rintro ⟨⟨⟨⟨⟨h1, h2⟩, h3⟩, m1, m2⟩, hsel⟩, rfl⟩
    refine ⟨_, ⟨h1, rfl⟩, _, ⟨by simpa using h2, rfl⟩, _, ⟨by simpa using h3, rfl⟩, ?_⟩
    simp only [State.pushed_segs]
    exact ⟨_, State.memRead_of (w := .w16) ((hm _ _).trans m1), _, State.memRead_of (w := .w16) ((hm _ _).trans m2), _,
      State.setSelector_of hsel, rfl⟩

@[simp] theorem State.delivered_latch (s : State) (v : BitVec 8) (ret : BitVec 32) : (s.delivered v ret).latch = s.latch := by
  simp [State.delivered, State.frameBuilt, State.sampleMode]

@[simp] theorem State.delivered_intDepth (s : State) (v : BitVec 8) (ret : BitVec 32) :
    (s.delivered v ret).intDepth = s.intDepth := by
  simp [State.delivered, State.frameBuilt, State.sampleMode]

/-- The delivery of the latched interrupt succeeds exactly where `deliver` does, and clears the latch and `halted` (R721). -/
theorem State.deliverLatched_iff {s t : State} :
    s.deliverLatched = .ok t ↔ s.deliverOk s.latch.vector s.eip = true ∧
      t = (((s.delivered s.latch.vector s.eip).setLatch { s.latch with pending := false }).setHalted false).setIntDepth
        (s.intDepth + 1) := by
  simp only [State.deliverLatched, bind_ok, State.deliver_iff]
  constructor
  · rintro ⟨u, ⟨h, rfl⟩, ht⟩
    refine ⟨h, ?_⟩
    simpa using (Except.ok.inj ht).symm
  · rintro ⟨h, rfl⟩
    exact ⟨_, ⟨h, rfl⟩, by simp⟩

/-- A cycle with a deliverable interrupt is its delivery (R200 step 1). -/
theorem step_of_deliverable {s : State} (h : s.deliverable = true) : step s = finish s.deliverLatched := by
  simp [step, cycle, h]

/-- Settles O11: the three starts of a cycle exclude one another, and a delivery is `deliver` and the wake-up. -/
theorem cycleOrder : Obligations.CycleOrder := by
  refine ⟨fun s hpend hunmasked => ?_, fun s hh hd => ?_⟩
  · have hdel : s.deliverable = true := by
      simp only [State.deliverable, hpend, Bool.true_and, Bool.or_eq_true, Bool.not_eq_true']
      exact hunmasked
    rw [step_of_deliverable hdel]
    refine ⟨fun hok => finish_of_ok (State.deliverLatched_iff.mpr ⟨hok, rfl⟩), fun hbad => ?_⟩
    cases hx : s.deliverLatched with
    | error k => exact ⟨k, rfl⟩
    | ok t => exact absurd ((State.deliverLatched_iff.mp hx).1) (by simp [hbad])
  · simp [step, cycle, State.deliverable_eq_false.mpr hd, hh]

/-! ## The host's actions (R711, R743 to R745) -/

/-- What a block write leaves at an address: the byte of the buffer there, or what was there (R743). -/
theorem State.byteAt_hostBlockWrite (s : State) (a b : BitVec 32) (bs : List Byte) (hlen : bs.length ≤ 2 ^ 32) :
    (s.hostBlockWrite a bs).byteAt b = bs.getD (b - a).toNat (s.byteAt b) := by
  induction bs generalizing s a with
  | nil => rfl
  | cons v bs ih =>
    have hlen' : bs.length + 1 ≤ 2 ^ 32 := hlen
    rw [State.hostBlockWrite, ih _ _ (by omega), State.byteAt_setByteAt]
    by_cases hb : b = a
    · subst hb
      have hlast : (b - (b + 1)).toNat = 2 ^ 32 - 1 := by simp
      rw [hlast, List.getD_eq_default _ _ (by omega)]
      simp
    · have hstep : (b - a).toNat = (b - (a + 1)).toNat + 1 := by
        have : b.toNat ≠ a.toNat := fun h => hb (BitVec.eq_of_toNat_eq h)
        simp only [BitVec.toNat_sub, BitVec.toNat_add, show (1 : BitVec 32).toNat = 1 from rfl]
        omega
      rw [hstep, List.getD_cons_succ, if_neg hb]

theorem State.hostBlockRead_length (s : State) (a : BitVec 32) (n : Nat) : (s.hostBlockRead a n).length = n := by
  induction n generalizing a with
  | zero => rfl
  | succ n ih => exact congrArg (· + 1) (ih (a + 1))

/-- Byte k of a block read is that at the k-th address (R743). -/
theorem State.hostBlockRead_getElem (s : State) (a : BitVec 32) (n k : Nat) (h : k < (s.hostBlockRead a n).length) :
    (s.hostBlockRead a n)[k] = s.byteAt (a + BitVec.ofNat 32 k) := by
  induction n generalizing a k with
  | zero => exact absurd h (Nat.not_lt_zero k)
  | succ n ih =>
    cases k with
    | zero => simp [State.hostBlockRead]
    | succ k => exact (ih (a + 1) k _).trans (congrArg s.byteAt (add_one_add a k))

/-- Settles O17: a request replaces the latch, an injection is a request, and a block write is read back byte by byte. -/
theorem hostRequests : Obligations.HostRequests := by
  refine ⟨fun s v w => ⟨rfl, rfl, rfl⟩, fun s a v bs => ⟨rfl, rfl, rfl, rfl, rfl, rfl⟩,
    fun s t a v bs => ⟨rfl, rfl, rfl, rfl, rfl, rfl⟩, fun s a => ⟨fun h => ?_, fun h => ?_, fun h => ?_⟩,
    fun s a n => ⟨s.hostBlockRead_length a n, s.hostBlockRead_getElem a n⟩,
    fun s a bs hlen => ⟨?_, fun k hk => ?_, fun b hb => ?_⟩⟩
  · exact ⟨State.memRead_of (w := .w8) h, fun v => State.memWrite_of (w := .w8) v h⟩
  · exact ⟨State.memRead_of (w := .w16) h, fun v => State.memWrite_of (w := .w16) v h⟩
  · exact ⟨State.memRead_of (w := .w32) h, fun v => State.memWrite_of (w := .w32) v h⟩
  · rw [State.hostBlockWrite_eq]
    rfl
  · have hoff : (a + BitVec.ofNat 32 k - a).toNat = k := by
      rw [add_sub_cancel_left, BitVec.toNat_ofNat, Nat.mod_eq_of_lt (by omega)]
    rw [s.byteAt_hostBlockWrite _ _ _ hlen, hoff, List.getD_eq_getElem _ _ hk]
  · rw [s.byteAt_hostBlockWrite _ _ _ hlen]
    refine List.getD_eq_default _ _ (Nat.le_of_not_lt fun hlt => hb (a, bs.length) List.mem_cons_self _ hlt ?_)
    rw [BitVec.ofNat_toNat, BitVec.setWidth_eq, add_sub_cancel]

end Sys2Proof.Machine
end

section
/-! SUPPORT. The frames: what each instruction leaves unchanged. `Item` names the parts of the state that the frames speak of,
`Instr.writes` says which of them an instruction may write, and `State.Does` that nothing else has changed. There is one rule for
each operation that the instructions share, and then one case for each instruction. -/

namespace Sys2Proof.Machine

/-! ## The parts of the state -/

/-- A part of FLAGS that instructions write on its own; `virt` is VM, VIF and VIP together. -/
inductive FlagItem where
  | status (x : StatusFlag)
  | tf
  | ifl
  | df
  | iopl
  | nt
  | rf
  | ac
  | id
  | virt

/-- The type of a part of FLAGS. -/
def FlagItem.Val : FlagItem → Type
  | .iopl => BitVec 2
  | .virt => Bool × Bool × Bool
  | _ => Bool

/-- The value of a part of FLAGS. -/
def FlagItem.get (f : Flags) : (x : FlagItem) → x.Val
  | .status x => f.get x
  | .tf => f.tf
  | .ifl => f.ifl
  | .df => f.df
  | .iopl => f.iopl
  | .nt => f.nt
  | .rf => f.rf
  | .ac => f.ac
  | .id => f.id
  | .virt => f.virt

/-- A part of the state that an instruction may write while it leaves the others as they were. -/
inductive Item where
  | reg (r : Reg)
  | flag (x : FlagItem)
  | seg (r : SegReg)
  | cr (c : CReg)
  | gdtr
  | idtr
  | latch
  | halted
  | intDepth
  | ioLog
  | eip

/-- The type of a part of the state. -/
def Item.Val : Item → Type
  | .reg _ | .cr _ | .eip => BitVec 32
  | .flag x => x.Val
  | .seg _ => Segment
  | .gdtr | .idtr => TableReg
  | .latch => Latch
  | .halted => Bool
  | .intDepth => Nat
  | .ioLog => List IoEvent

/-- The value of a part of the state. -/
def Item.get (s : State) : (x : Item) → x.Val
  | .reg r => s.regs.get r
  | .flag x => x.get s.flags
  | .seg r => s.segs.get r
  | .cr c => s.cr.get c
  | .gdtr => s.gdtr
  | .idtr => s.idtr
  | .latch => s.latch
  | .halted => s.halted
  | .intDepth => s.intDepth
  | .ioLog => s.ioLog
  | .eip => s.eip

end Sys2Proof.Machine

namespace Sys2Proof

open Sys2Proof.Machine

/-- Whether an instruction may write a part of FLAGS (R67). -/
def Instr.writesFlag (i : Instr) : FlagItem → Prop
  | .status x => x ∈ i.statusWritten
  | .tf => i.popsFlags = true ∨ i.isSoftInt = true
  | .ifl => i = .cli ∨ i = .sti ∨ i.popsFlags = true ∨ i.isSoftInt = true
  | .df => i = .cld ∨ i = .std ∨ i.popsFlags = true
  | .iopl | .nt => i.popsFlags = true
  | .rf | .id => i.popsFlags32 = true
  | .ac => i.popsFlags32 = true ∨ i.isSoftInt = true
  | .virt => False

/-- Whether an instruction may write a part of the state, its advance left aside: EIP is written by the control transfers, all of
which sample the mode. -/
def Instr.writes (i : Instr) : Item → Prop
  | .reg r => r ∈ i.regsWritten
  | .flag x => i.writesFlag x
  | .seg r => r ∈ i.segsWritten
  | .cr c => c ∈ i.crsWritten
  | .gdtr => ∃ os m, i = .lgdt os m
  | .idtr => ∃ os m, i = .lidt os m
  | .latch => False
  | .halted => i = .hlt
  | .intDepth => i.isSoftInt = true ∨ ∃ os, i = .iret os
  | .ioLog => i.isIo = true
  | .eip => i.samplesMode = true

end Sys2Proof

namespace Sys2Proof.Machine

/-! ## FLAGS: which status flags a computation puts -/

/-- From `f` to `g`, no part of FLAGS has changed but status flags of a list. -/
def Flags.Puts (l : List StatusFlag) (f g : Flags) : Prop := ∀ x : FlagItem, (∀ y ∈ l, x ≠ .status y) → x.get g = x.get f

theorem Flags.get_put (f : Flags) (x y : StatusFlag) (b : Bool) : (f.put x b).get y = if y = x then b else f.get y := by
  cases x <;> cases y <;> rfl

namespace Flags.Puts
variable {l : List StatusFlag} {f g : Flags}

theorem refl (l : List StatusFlag) (f : Flags) : f.Puts l f := fun _ _ => rfl

theorem put (h : f.Puts l g) (x : StatusFlag) (b : Bool) (hx : x ∈ l := by decide) : f.Puts l (g.put x b) := fun y hy => by
  refine Eq.trans ?_ (h y hy)
  cases y with
  | status y => exact (g.get_put x y b).trans (if_neg fun hyx => hy x hx (congrArg FlagItem.status hyx))
  | _ => cases x <;> rfl

theorem free (h : f.Puts l g) (k : Nat) (xs : List StatusFlag) (hxs : ∀ x ∈ xs, x ∈ l := by decide) :
    f.Puts l (g.free k xs) := by
  induction xs generalizing g with
  | nil => exact h
  | cons x xs ih =>
    exact ih (h.put x _ (hxs x List.mem_cons_self)) fun y hy => hxs y (List.mem_cons_of_mem x hy)

theorem szp (h : f.Puts l g) {n : Nat} (r : BitVec n) (hl : ∀ x ∈ [StatusFlag.sf, .zf, .pf], x ∈ l := by decide) :
    f.Puts l (g.szp r) :=
  ((h.put .sf r.msb (hl _ (by decide))).put .zf (decide (r = 0)) (hl _ (by decide))).put .pf (parity r) (hl _ (by decide))

end Flags.Puts

/-- The six status flags. -/
abbrev statusFlags : List StatusFlag := [.cf, .pf, .af, .zf, .sf, .ofl]

theorem mem_statusFlags (x : StatusFlag) : x ∈ statusFlags := by cases x <;> decide

section
variable (f : Flags) (k : Nat) {n : Nat}

theorem Flags.addFlags_puts (a b : BitVec n) (c : Bool) : f.Puts statusFlags (f.addFlags a b c).2 :=
  ((((Flags.Puts.refl statusFlags f).szp _).put .cf _).put .ofl _).put .af _

theorem Flags.subFlags_puts (a b : BitVec n) (c : Bool) : f.Puts statusFlags (f.subFlags a b c).2 :=
  ((((Flags.Puts.refl statusFlags f).szp _).put .cf _).put .ofl _).put .af _

/-- CF is put back, so it is the one status flag that has not changed (R415, R416). -/
theorem Flags.keepCarry_puts {r : BitVec n × Flags} (h : f.Puts statusFlags r.2) :
    f.Puts [.pf, .af, .zf, .sf, .ofl] (f.keepCarry r).2 := fun x hx => by
  have hr := h x
  cases x with
  | status y =>
    cases y with
    | cf => rfl
    | _ => exact absurd rfl (hx _ (by decide))
  | _ => exact hr fun _ _ => nofun

theorem Flags.withLogic_puts (r : BitVec n) : f.Puts statusFlags (f.withLogic k r).2 :=
  ((((Flags.Puts.refl statusFlags f).put .cf false).put .ofl false).szp r).free k _

theorem Flags.Puts.putOverflow {l : List StatusFlag} {f g : Flags} (h : f.Puts l g) (k cnt : Nat) (b : Bool)
    (hl : .ofl ∈ l := by decide) : f.Puts l (g.putOverflow k cnt b) := by
  unfold Flags.putOverflow
  split
  · exact h.put .ofl b hl
  · exact h.free k _ (by simpa using hl)

theorem Flags.rotate_puts {l : List StatusFlag} (hl : ∀ x ∈ [StatusFlag.cf, .ofl], x ∈ l)
    (step : BitVec n → Bool → BitVec n × Bool) (ovf : BitVec n → BitVec n → Bool → Bool) (cnt : Nat) (a : BitVec n) :
    f.Puts l (f.rotate k step ovf cnt a).2 :=
  ((Flags.Puts.refl l f).put .cf _ (hl _ (by decide))).putOverflow k cnt _ (hl _ (by decide))

theorem Flags.shift_puts (step : BitVec n → Bool → BitVec n × Bool) (ovf : BitVec n → BitVec n → Bool → Bool) (cnt : Nat)
    (a : BitVec n) : f.Puts statusFlags (f.shift k step ovf cnt a).2 :=
  ((f.rotate_puts k (fun x _ => mem_statusFlags x) step ovf cnt a).szp _).free k _

theorem Flags.doubleShift_puts (cnt : Nat) (a r : BitVec n) (c : Bool) : f.Puts statusFlags (f.doubleShift k cnt a r c).2 := by
  unfold Flags.doubleShift
  split
  · exact (Flags.Puts.refl statusFlags f).free k _
  · exact ((((Flags.Puts.refl statusFlags f).put .cf c).szp r).free k _).putOverflow k cnt _

theorem Flags.mulFlags_puts (b : Bool) : f.Puts statusFlags (f.mulFlags k b) :=
  (((Flags.Puts.refl statusFlags f).put .cf b).put .ofl b).free k _

theorem Flags.divFlags_puts : f.Puts statusFlags (f.divFlags k) := (Flags.Puts.refl statusFlags f).free k _

theorem Flags.bitFlags_puts (b : Bool) : f.Puts [.cf, .pf, .af, .sf, .ofl] (f.bitFlags k b) :=
  ((Flags.Puts.refl _ f).put .cf b).free k _

theorem Flags.scanFlags_puts (b : Bool) : f.Puts statusFlags (f.scanFlags k b) :=
  ((Flags.Puts.refl statusFlags f).put .zf b).free k _

theorem Flags.daa_puts (al : BitVec 8) : f.Puts statusFlags (f.daa k al).2 :=
  ((((Flags.Puts.refl statusFlags f).put .cf _).put .af _).szp _).free k _

theorem Flags.das_puts (al : BitVec 8) : f.Puts statusFlags (f.das k al).2 :=
  ((((Flags.Puts.refl statusFlags f).put .cf _).put .af _).szp _).free k _

theorem Flags.aaa_puts (ax : BitVec 16) : f.Puts statusFlags (f.aaa k ax).2 :=
  let low := f.adjustLow (ax.setWidth 8)
  (((Flags.Puts.refl statusFlags f).put .af low).put .cf low).free k [.ofl, .sf, .zf, .pf]

theorem Flags.aas_puts (ax : BitVec 16) : f.Puts statusFlags (f.aas k ax).2 :=
  let low := f.adjustLow (ax.setWidth 8)
  (((Flags.Puts.refl statusFlags f).put .af low).put .cf low).free k [.ofl, .sf, .zf, .pf]

theorem Flags.asciiFlags_puts (al : BitVec 8) : f.Puts statusFlags (f.asciiFlags k al) :=
  ((Flags.Puts.refl statusFlags f).szp al).free k _

theorem Flags.loadAh_puts (v : BitVec 8) : f.Puts [.cf, .pf, .af, .zf, .sf] (f.loadAh v) :=
  (((((Flags.Puts.refl _ f).put .sf (v.getLsbD 7)).put .zf (v.getLsbD 6)).put .af (v.getLsbD 4)).put .pf
    (v.getLsbD 2)).put .cf (v.getLsbD 0)

end

/-! ## States: what an instruction may have done so far -/

/-- What a load of a segment register gives: the real-mode descriptor of the selector, or a decoded one (R72, R131, R133). -/
def SegLoaded (r : SegReg) (x : Segment) : Prop := ∃ v, x = realSegment r v ∨ ∃ d, x = ⟨v, decodeDescriptor d⟩

theorem State.segmentFor_loaded (s : State) (r : SegReg) (v : BitVec 16) : SegLoaded r (s.segmentFor r v) := by
  unfold State.segmentFor
  cases s.mode with
  | real => exact ⟨v, .inl rfl⟩
  | prot => exact ⟨v, .inr ⟨_, rfl⟩⟩

/-- From `s` to `t`, no part of the state has changed but those that instruction `i` may write; the mode and the transient state are
as they were, and each segment register is as it was or has been loaded. -/
structure State.Does (i : Instr) (s t : State) : Prop where
  same : ∀ x : Item, ¬i.writes x → x.get t = x.get s
  mode : t.mode = s.mode
  cyc : t.cyc = s.cyc
  loads : ∀ r, t.segs.get r = s.segs.get r ∨ SegLoaded r (t.segs.get r)

theorem Reg.home_size (os : Size) (r : Reg) : r.home os.width = r := by cases os <;> rfl

theorem Reg.home_eax (w : Width) : Reg.eax.home w = .eax := by cases w <;> rfl

theorem Segs.get_set (x : Segs) (r q : SegReg) (v : Segment) : (x.set r v).get q = if q = r then v else x.get q := by
  cases r <;> cases q <;> rfl

theorem CRegs.get_set (x : CRegs) (c d : CReg) (v : BitVec 32) : (x.set c v).get d = if d = c then v else x.get d := by
  cases c <;> cases d <;> rfl

namespace State.Does
variable {i : Instr} {s t : State}

theorem refl (i : Instr) (s : State) : s.Does i s := ⟨fun _ _ => rfl, rfl, rfl, fun _ => .inl rfl⟩

/-- One more update, of parts that `i` may write, and of no segment register. -/
theorem update (h : s.Does i t) {u : State} (hu : ∀ x : Item, ¬i.writes x → x.get u = x.get t) (hm : u.mode = t.mode := by rfl)
    (hc : u.cyc = t.cyc := by rfl) (hs : u.segs = t.segs := by rfl) : s.Does i u :=
  ⟨fun x hx => (hu x hx).trans (h.same x hx), hm.trans h.mode, hc.trans h.cyc, by rw [hs]; exact h.loads⟩

theorem trans {u : State} (h : s.Does i t) (h' : t.Does i u) : s.Does i u := by
  refine ⟨fun x hx => (h'.same x hx).trans (h.same x hx), h'.mode.trans h.mode, h'.cyc.trans h.cyc, fun r => ?_⟩
  rcases h'.loads r with hr | hr
  · rw [hr]
    exact h.loads r
  · exact .inr hr

variable (h : s.Does i t)
include h

/-! ### Registers -/

theorem setRegs {v : Regs} (hv : ∀ r, r ∉ i.regsWritten → v.get r = t.regs.get r) : s.Does i (t.setRegs v) :=
  h.update fun x hx => by
    cases x with
    | reg r => exact hv r hx
    | _ => rfl

theorem setReg (w : Width) {r : Reg} (v : BitVec w.bits) (hr : r.home w ∈ i.regsWritten) : s.Does i (t.setReg w r v) :=
  h.setRegs fun q hq => Regs.get_write_of_ne t.regs w r q v fun hqr => hq (hqr ▸ hr)

/-- A view of 16 or 32 bits belongs to the register of its own name (R52, R53). -/
theorem setRegSize (os : Size) {r : Reg} (v : BitVec os.width.bits) (hr : r ∈ i.regsWritten) : s.Does i (t.setReg os.width r v) :=
  h.setReg os.width v ((Reg.home_size os r).symm ▸ hr)

theorem setAcc (w : Width) (v : BitVec w.bits) (hr : .eax ∈ i.regsWritten) : s.Does i (t.setReg w .eax v) :=
  h.setReg w v ((Reg.home_eax w).symm ▸ hr)

theorem setSp (v : BitVec 32) (hr : .esp ∈ i.regsWritten) : s.Does i (t.setSp v) := by
  unfold State.setSp
  cases t.sw with
  | s16 => exact h.setReg .w16 _ hr
  | s32 => exact h.setReg .w32 _ hr

theorem setHalves (w : Width) (high low : BitVec w.bits) (ha : .eax ∈ i.regsWritten) (hh : (highReg w).home w ∈ i.regsWritten) :
    s.Does i (t.setHalves w high low) := (h.setAcc w low ha).setReg w high hh

theorem decCount (as : Size) (hr : .ecx ∈ i.regsWritten) : s.Does i (t.decCount as) := h.setRegSize as _ hr

theorem stepIndex (as : Size) (w : Width) {r : Reg} (hr : r ∈ i.regsWritten) : s.Does i (t.stepIndex as w r) :=
  h.setRegSize as _ hr

theorem extendAcc (os : Size) (hr : .eax ∈ i.regsWritten) : s.Does i (t.extendAcc os) := by
  cases os with
  | s16 => exact h.setReg .w16 _ hr
  | s32 => exact h.setReg .w32 _ hr

/-! ### FLAGS -/

theorem setFlags {f : Flags} (hf : ∀ x : FlagItem, ¬i.writesFlag x → x.get f = x.get s.flags) : s.Does i (t.setFlags f) := by
  refine ⟨fun x hx => ?_, h.mode, h.cyc, h.loads⟩
  have ht := h.same x hx
  cases x with
  | flag y => exact hf y hx
  | _ => exact ht

theorem setStatus {f : Flags} (hf : s.flags.Puts i.statusWritten f) : s.Does i (t.setFlags f) :=
  h.setFlags fun x hx => hf x fun _ hy hxy => hx (hxy ▸ hy)

/-! ### The other parts -/

theorem setEip (v : BitVec 32) (hi : i.samplesMode = true) : s.Does i (t.setEip v) :=
  h.update fun x hx => by
    cases x with
    | eip => exact absurd hi hx
    | _ => rfl

theorem setNearEip (os : Size) (v : BitVec 32) (hi : i.samplesMode = true) : s.Does i (t.setNearEip os v) := h.setEip _ hi

theorem loadSeg {r : SegReg} {v : Segment} (hv : SegLoaded r v) (hr : r ∈ i.segsWritten) : s.Does i (t.setSeg r v) := by
  refine ⟨fun x hx => ?_, h.mode, h.cyc, fun q => ?_⟩
  · have ht := h.same x hx
    cases x with
    | seg q =>
      exact (Segs.get_set t.segs r q v).trans ((if_neg fun hqr : q = r => hx (hqr ▸ hr)).trans ht)
    | _ => exact ht
  · rw [State.setSeg_segs, Segs.get_set]
    split
    · next hqr => exact .inr (hqr ▸ hv)
    · exact h.loads q

theorem setCr {c : CReg} (v : BitVec 32) (hc : c ∈ i.crsWritten) : s.Does i (t.setCr c v) :=
  h.update fun x hx => by
    cases x with
    | cr d => exact (CRegs.get_set t.cr c d v).trans (if_neg fun hdc : d = c => hx (hdc ▸ hc))
    | _ => rfl

theorem setGdtr (v : TableReg) (hi : i.writes .gdtr) : s.Does i (t.setGdtr v) :=
  h.update fun x hx => by
    cases x with
    | gdtr => exact absurd hi hx
    | _ => rfl

theorem setIdtr (v : TableReg) (hi : i.writes .idtr) : s.Does i (t.setIdtr v) :=
  h.update fun x hx => by
    cases x with
    | idtr => exact absurd hi hx
    | _ => rfl

theorem setHalted (v : Bool) (hi : i.writes .halted) : s.Does i (t.setHalted v) :=
  h.update fun x hx => by
    cases x with
    | halted => exact absurd hi hx
    | _ => rfl

theorem setIntDepth (v : Nat) (hi : i.writes .intDepth) : s.Does i (t.setIntDepth v) :=
  h.update fun x hx => by
    cases x with
    | intDepth => exact absurd hi hx
    | _ => rfl

theorem logIo (e : IoEvent) (hi : i.isIo = true) : s.Does i (t.logIo e) :=
  h.update fun x hx => by
    cases x with
    | ioLog => exact absurd hi hx
    | _ => rfl

theorem drawn : s.Does i t.drawn := h.update fun x _ => by cases x <;> rfl

theorem setMem (m : Memory) : s.Does i (t.setMem m) := h.update fun x _ => by cases x <;> rfl

theorem store (lin : BitVec 32) (w : Width) (v : BitVec w.bits) : s.Does i (t.store lin w v) := by
  rw [State.store_eq]
  exact h.setMem _

theorem ioRead (port : BitVec 16) (w : Width) (hi : i.isIo = true) : s.Does i (t.ioRead port w).2 := by
  cases hd : t.deviceOf port with
  | none => rw [State.ioRead_of_none w hd]; exact h
  | some d => rw [State.ioRead_of_device w hd]; exact (h.logIo _ hi).drawn

theorem ioWrite (port : BitVec 16) (w : Width) (v : BitVec w.bits) (hi : i.isIo = true) : s.Does i (t.ioWrite port w v) := by
  cases hd : t.deviceOf port with
  | none => rw [State.ioWrite_of_none v hd]; exact h
  | some d => rw [State.ioWrite_of_device v hd]; exact h.logIo _ hi

end State.Does

/-! ## Computations that may fault -/

/-- A computation that succeeds answers a state with a property; one that faults answers none. `State.KeptBy` is the case of the
property `State.Keeps`. -/
def Yields (P : State → Prop) (x : Except FaultKind State) : Prop := ∀ t, x = .ok t → P t

namespace Yields
variable {P Q : State → Prop}

theorem ok {t : State} (h : P t) : Yields P (.ok t) := fun _ hu => Except.ok.inj hu ▸ h

theorem error (k : FaultKind) : Yields P (.error k) := fun _ hu => nomatch hu

theorem bind_value {α : Type} {x : Except FaultKind α} {f : α → Except FaultKind State} (hf : ∀ a, Yields P (f a)) :
    Yields P (x >>= f) := fun u hu =>
  have ⟨a, _, ha⟩ := bind_ok.mp hu
  hf a u ha

theorem bind_state {x : Except FaultKind State} {f : State → Except FaultKind State} (hx : Yields Q x)
    (hf : ∀ t, Q t → Yields P (f t)) : Yields P (x >>= f) := fun u hu =>
  have ⟨t, ht, hu⟩ := bind_ok.mp hu
  hf t (hx t ht) u hu

theorem bind_pop {i : Instr} {s t : State} {n : Size} {f : BitVec n.width.bits × State → Except FaultKind State}
    (h : s.Does i t) (hr : .esp ∈ i.regsWritten) (hf : ∀ v u, s.Does i u → Yields P (f (v, u))) : Yields P (t.pop n >>= f) :=
  fun r hu => by
    obtain ⟨⟨v, u⟩, hpop, hu⟩ := bind_ok.mp hu
    obtain ⟨-, -, rfl⟩ := State.pop_iff.mp hpop
    exact hf v _ (h.setSp _ hr) r hu

theorem ite {c : Prop} [Decidable c] {x y : Except FaultKind State} (hx : Yields P x) (hy : Yields P y) :
    Yields P (if c then x else y) := by
  split
  · exact hx
  · exact hy

end Yields

/-- From `s` to `t`, an instruction has done what it may, and then EIP has gone on to the next one (R61). -/
def State.Advances (i : Instr) (s t : State) : Prop := ∃ u, s.Does i u ∧ t = u.advance

theorem State.Does.advance {i : Instr} {s t : State} (h : s.Does i t) : s.Advances i t.advance := ⟨t, h, rfl⟩

/-! ### Accesses, stack and segments -/

namespace State.Does
variable {i : Instr} {s t : State} (h : s.Does i t)
include h

theorem memWrite (w : Width) (lin : BitVec 32) (v : BitVec w.bits) : Yields (s.Does i) (t.memWrite w lin v) := fun _ hu => by
  obtain ⟨-, rfl⟩ := State.memWrite_iff.mp hu
  exact h.store lin w v

theorem writeAt (w : Width) (p : Place) (v : BitVec w.bits) (hp : ∀ r, p = .reg r → r.home w ∈ i.regsWritten) :
    Yields (s.Does i) (t.writeAt w p v) := by
  cases p with
  | reg r => exact .ok (h.setReg w v (hp r rfl))
  | mem lin => exact h.memWrite w lin v

theorem writeRm (w : Width) (x : Rm) (v : BitVec w.bits) (hx : x.homes w ⊆ i.regsWritten) :
    Yields (s.Does i) (t.writeRm w x v) := by
  cases x with
  | reg r => exact .ok (h.setReg w v (hx List.mem_cons_self))
  | mem m => exact h.memWrite w _ v

theorem storeWord (os : Size) (x : Rm) (v : BitVec 16) (hx : x.homes os.width ⊆ i.regsWritten) :
    Yields (s.Does i) (t.storeWord os x v) := by
  cases x with
  | reg r => exact .ok (h.setReg os.width _ (hx List.mem_cons_self))
  | mem m => exact h.memWrite .w16 _ v

theorem writeTable (os : Size) (m : MemRef) (v : TableReg) : Yields (s.Does i) (t.writeTable os m v) :=
  .bind_state (h.memWrite .w16 _ _) fun _ hu => hu.memWrite .w32 _ _

theorem setSelector {r : SegReg} (v : BitVec 16) (hr : r ∈ i.segsWritten) :
    Yields (s.Does i) (t.setSelector r v) := fun _ hu => by
  obtain ⟨-, rfl⟩ := State.setSelector_iff.mp hu
  exact h.loadSeg (t.segmentFor_loaded r v) hr

theorem setCond (c : Cond) (x : Rm) (hx : x.homes .w8 ⊆ i.regsWritten) : Yields (s.Advances i) (t.setCond c x) :=
  .bind_state (h.writeRm .w8 x _ hx) fun _ hu => .ok hu.advance

theorem loadFar (os : Size) {r : SegReg} {dst : Reg} (m : MemRef) (hr : r ∈ i.segsWritten) (hd : dst ∈ i.regsWritten) :
    Yields (s.Does i) (t.loadFar os r dst m) :=
  .bind_value fun _ => .bind_state (h.setSelector _ hr) fun _ hu => .ok (hu.setRegSize os _ hd)

/-! ### The stack -/

section
variable (hr : .esp ∈ i.regsWritten)
include hr

theorem push (n : Size) (v : BitVec n.width.bits) : Yields (s.Does i) (t.push n v) := (h.setSp _ hr).memWrite n.width _ v

theorem pushAll (os : Size) (l : List (BitVec os.width.bits)) : Yields (s.Does i) (t.pushAll os l) := by
  induction l generalizing t with
  | nil => exact .ok h
  | cons v vs ih => exact .bind_state (h.push hr os v) fun _ hu => ih hu

theorem popAll (os : Size) (l : List Reg) (hl : l ⊆ i.regsWritten) : Yields (s.Does i) (t.popAll os l) := by
  induction l generalizing t with
  | nil => exact .ok h
  | cons r rs ih =>
    obtain ⟨hr', hrs⟩ := List.cons_subset.mp hl
    exact .bind_pop h hr fun v u hu => .ite (ih hu hrs) (ih (hu.setRegSize os v hr') hrs)

theorem enterLoop (os : Size) (fp : BitVec 32) (k : Nat) : Yields (s.Does i) (t.enterLoop os fp k) := by
  induction k generalizing t fp with
  | zero => exact .ok h
  | succ k ih => exact .bind_value fun v => .bind_state (h.push hr os v) fun _ hu => ih hu _

theorem enterLevels (os : Size) (fp frame : BitVec 32) (level : Nat) : Yields (s.Does i) (t.enterLevels os fp frame level) :=
  .ite (.ok h) (.bind_state (h.enterLoop hr os fp _) fun _ hu => hu.push hr os _)

theorem pushSeg (os : Size) (r : SegReg) : Yields (s.Advances i) (t.pushSeg os r) :=
  .bind_state (h.push hr os _) fun _ hu => .ok hu.advance

theorem popSeg (os : Size) {r : SegReg} (hs : r ∈ i.segsWritten) : Yields (s.Advances i) (t.popSeg os r) :=
  .bind_pop h hr fun _ _ hu => .bind_state (hu.setSelector _ hs) fun _ hu => .ok hu.advance

end
end State.Does

/-! ### The shapes that instructions share -/

section
variable {i : Instr} {s : State} {w : Width} {os : Size} {dst : Rm} {src : Operand}

theorem State.binary_does {f : BitVec w.bits → BitVec w.bits → BitVec w.bits × Flags} (hd : dst.homes w ⊆ i.regsWritten)
    (hf : ∀ a b, s.flags.Puts i.statusWritten (f a b).2) : Yields (s.Does i) (s.binary w dst src f) :=
  .bind_value fun a => .bind_value fun b =>
    .bind_state ((State.Does.refl i s).writeRm w dst _ hd) fun _ ht => .ok (ht.setStatus (hf a b))

theorem State.compare_does {f : BitVec w.bits → BitVec w.bits → BitVec w.bits × Flags}
    (hf : ∀ a b, s.flags.Puts i.statusWritten (f a b).2) : Yields (s.Does i) (s.compare w dst src f) :=
  .bind_value fun a => .bind_value fun b => .ok ((State.Does.refl i s).setStatus (hf a b))

theorem State.unary_does {f : BitVec w.bits → BitVec w.bits × Flags} (hd : dst.homes w ⊆ i.regsWritten)
    (hf : ∀ a, s.flags.Puts i.statusWritten (f a).2) : Yields (s.Does i) (s.unary w dst f) :=
  .bind_value fun a => .bind_state ((State.Does.refl i s).writeRm w dst _ hd) fun _ ht => .ok (ht.setStatus (hf a))

theorem State.shiftRm_does {count : ShiftCount} {f : Nat → BitVec w.bits → BitVec w.bits × Flags}
    (hd : dst.homes w ⊆ i.regsWritten) (hf : ∀ cnt a, s.flags.Puts i.statusWritten (f cnt a).2) :
    Yields (s.Does i) (s.shiftRm w dst count f) :=
  .bind_value fun a => .ite (.ok (.refl i s)) <|
    .bind_state ((State.Does.refl i s).writeRm w dst _ hd) fun _ ht => .ok (ht.setStatus (hf _ a)).drawn

/-- The place of a bit is the operand's register, or memory (R489). -/
theorem State.bitPlace_reg {off : BitOff} {r : Reg} (h : (s.bitPlace os dst off).1 = .reg r) : dst = .reg r := by
  cases dst with
  | reg q => cases off <;> simpa [State.bitPlace, State.place] using h
  | mem m => cases off <;> simp [State.bitPlace, State.place] at h

theorem State.bitModify_does {off : BitOff} {f : BitVec os.width.bits → BitVec os.width.bits → BitVec os.width.bits}
    (hd : dst.homes os.width ⊆ i.regsWritten) (hf : ∀ b, s.flags.Puts i.statusWritten (s.flags.bitFlags s.draws b)) :
    Yields (s.Does i) (s.bitModify os dst off f) :=
  .bind_value fun _ => .bind_state ((State.Does.refl i s).writeAt os.width _ _ fun r hr => hd (by
    rw [State.bitPlace_reg hr]; exact List.mem_cons_self)) fun _ ht => .ok (ht.setStatus (hf _)).drawn

end

/-! ### The bodies of the string instructions (R584 to R591) -/

section
variable {i : Instr} (w : Width) (as : Size) (seg : SegReg) (s : State)

section
variable (hs : .esi ∈ i.regsWritten)
include hs

theorem lodsBody_does (ha : .eax ∈ i.regsWritten) : Yields (s.Does i) (lodsBody w as seg s) :=
  .bind_value fun v => .ok (((State.Does.refl i s).setAcc w v ha).stepIndex as w hs)

theorem outsBody_does (hi : i.isIo = true) : Yields (s.Does i) (outsBody w as seg s) :=
  .bind_value fun v => .ok (((State.Does.refl i s).ioWrite _ w v hi).stepIndex as w hs)
end

section
variable (hd : .edi ∈ i.regsWritten)
include hd

theorem movsBody_does (hs : .esi ∈ i.regsWritten) : Yields (s.Does i) (movsBody w as seg s) :=
  .bind_value fun v => .bind_state ((State.Does.refl i s).memWrite w _ v) fun _ ht =>
    .ok ((ht.stepIndex as w hs).stepIndex as w hd)

theorem cmpsBody_does (hs : .esi ∈ i.regsWritten) (hf : i.statusWritten = statusFlags) :
    Yields (s.Does i) (cmpsBody w as seg s) :=
  .bind_value fun a => .bind_value fun b =>
    .ok ((((State.Does.refl i s).setStatus (hf ▸ s.flags.subFlags_puts a b false)).stepIndex as w hs).stepIndex as w hd)

theorem stosBody_does : Yields (s.Does i) (stosBody w as s) :=
  .bind_state ((State.Does.refl i s).memWrite w _ _) fun _ ht => .ok (ht.stepIndex as w hd)

theorem scasBody_does (hf : i.statusWritten = statusFlags) : Yields (s.Does i) (scasBody w as s) :=
  .bind_value fun b => .ok (((State.Does.refl i s).setStatus (hf ▸ s.flags.subFlags_puts _ b false)).stepIndex as w hd)

theorem insBody_does (hi : i.isIo = true) : Yields (s.Does i) (insBody w as s) := by
  unfold insBody
  split
  · exact .error _
  · exact .bind_state (((State.Does.refl i s).ioRead _ w hi).memWrite w _ _) fun _ ht => .ok (ht.stepIndex as w hd)
end
end

/-! ### Control transfers, from the state whose mode has been sampled -/

namespace State.Does
variable {i : Instr} {s t : State} (h : s.Does i t) (hi : i.samplesMode = true)
include hi

/-- A branch samples the mode first, so what is asked for is about the sampled states (R140, R521). -/
theorem branch (h : s.Does i t.sampleMode) (b : Bool) (os : Size) (rel : BitVec 32) : s.Does i (t.branch b os rel) := by
  cases b with
  | true => exact h.setNearEip os _ hi
  | false => exact h.setEip _ hi

include h

theorem farTransfer (sel : BitVec 16) (off : BitVec 32) (hs : .cs ∈ i.segsWritten) : Yields (s.Does i) (t.farTransfer sel off) :=
  .bind_state (h.setSelector sel hs) fun _ hu => .ok (hu.setEip _ hi)

section
variable (hr : .esp ∈ i.regsWritten)
include hr

theorem callNear (os : Size) (target : BitVec 32) : Yields (s.Does i) (t.callNear os target) :=
  .bind_state (h.push hr os _) fun _ hu => .ok (hu.setNearEip os target hi)

theorem returnNear (os : Size) (release : BitVec 16) : Yields (s.Does i) (t.returnNear os release) :=
  .bind_pop h hr fun _ _ hu => .ok ((hu.setSp _ hr).setNearEip os _ hi)

variable (hs : .cs ∈ i.segsWritten)
include hs

theorem callFar (os : Size) (sel : BitVec 16) (off : BitVec 32) : Yields (s.Does i) (t.callFar os sel off) :=
  .bind_state (h.farTransfer hi sel off hs) fun _ hu => .bind_state (hu.push hr os _) fun _ hu => hu.push hr os _

theorem returnFar (os : Size) (release : BitVec 16) : Yields (s.Does i) (t.returnFar os release) :=
  .bind_pop h hr fun _ _ hu => .bind_pop hu hr fun _ _ hu => (hu.setSp _ hr).farTransfer hi _ _ hs

end
end State.Does

/-! ### Loads of FLAGS, and interrupts -/

theorem Instr.mem_statusWritten_of_popsFlags {i : Instr} (h : i.popsFlags = true) (x : StatusFlag) : x ∈ i.statusWritten := by
  unfold Instr.popsFlags at h
  split at h
  case h_4 => cases h
  all_goals exact mem_statusFlags x

theorem Instr.popsFlags_of_popsFlags32 {i : Instr} (h : i.popsFlags32 = true) : i.popsFlags = true := by
  unfold Instr.popsFlags32 at h
  split at h
  case h_3 => cases h
  all_goals rfl

section
variable {i : Instr} {x : FlagItem} (hx : ¬i.writesFlag x)
include hx

/-- What a load of FLAGS may leave alone (R383). -/
theorem FlagItem.of_not_writesFlag (hi : i.popsFlags = true) : x = .rf ∨ x = .id ∨ x = .ac ∨ x = .virt := by
  cases x with
  | status y => exact absurd (Instr.mem_statusWritten_of_popsFlags hi y) hx
  | tf => exact absurd (.inl hi) hx
  | ifl => exact absurd (.inr (.inr (.inl hi))) hx
  | df => exact absurd (.inr (.inr hi)) hx
  | iopl | nt => exact absurd hi hx
  | rf | id | ac | virt => simp

variable (f : Flags)

/-- A delivery clears flags that a software interrupt may write (R722). -/
theorem Flags.maskTraps_same (hi : i.isSoftInt = true) :
    x.get { f with ifl := false, tf := false, ac := false } = x.get f := by
  cases x with
  | tf | ac => exact absurd (.inr hi) hx
  | ifl => exact absurd (.inr (.inr (.inr hi))) hx
  | _ => rfl

theorem Flags.load16_same (v : BitVec 16) (hi : i.popsFlags = true) : x.get (f.load16 v) = x.get f := by
  rcases FlagItem.of_not_writesFlag hx hi with rfl | rfl | rfl | rfl <;> rfl

/-- A load from a 32-bit image may write every flag but VM, VIF and VIP (R384, R560). -/
theorem Flags.load32_same {g : Flags} (hg : g.virt = f.virt) (hi : i.popsFlags32 = true) : x.get g = x.get f := by
  rcases FlagItem.of_not_writesFlag hx (Instr.popsFlags_of_popsFlags32 hi) with rfl | rfl | rfl | rfl
  · exact absurd hi hx
  · exact absurd hi hx
  · exact absurd (.inl hi) hx
  · exact hg
end

namespace State.Does
variable {i : Instr} {s t : State}

/-- FLAGS may change where the change is one that `i` may make, from the present FLAGS. -/
theorem changeFlags (h : s.Does i t) {f : Flags} (hf : ∀ {x : FlagItem}, ¬i.writesFlag x → x.get f = x.get t.flags) :
    s.Does i (t.setFlags f) := h.setFlags fun x hx => (hf hx).trans (h.same (.flag x) hx)

/-- INT, INT3 and INTO write what a delivery does: SP, CS, EIP, and IF, TF and AC (R540, R722). -/
theorem softInterrupt (h : s.Does i t.sampleMode) (v : BitVec 8) (hi : i.isSoftInt = true) (hm : i.samplesMode = true)
    (hr : .esp ∈ i.regsWritten) (hs : .cs ∈ i.segsWritten) : Yields (s.Does i) (t.softInterrupt v) := by
  have hdeliver : Yields (s.Does i) (t.sampleMode.deliver v t.next) :=
    .bind_state (h.push hr .s16 _) fun _ hu =>
    .bind_state (hu.push hr .s16 _) fun _ hu =>
    .bind_state (hu.push hr .s16 _) fun u hu =>
    .bind_value fun _ => .bind_value fun _ =>
    .bind_state ((hu.changeFlags fun hx => u.flags.maskTraps_same hx hi).setSelector _ hs) fun _ hu => .ok (hu.setEip _ hm)
  exact .bind_state hdeliver fun _ hu => .ok (hu.setIntDepth _ (.inl hi))

/-- IRET and IRETD write SP, CS, EIP, the nesting and the flags of their image (R560). -/
theorem interruptReturn (os : Size) : Yields (s.sampleMode.Does (.iret os)) (s.interruptReturn os) := by
  have h := refl (.iret os) s.sampleMode
  have hr : Reg.esp ∈ (Instr.iret os).regsWritten := List.mem_cons_self
  have hs : SegReg.cs ∈ (Instr.iret os).segsWritten := List.mem_cons_self
  cases os with
  | s16 =>
    exact .bind_pop h hr fun _ _ hu => .bind_pop hu hr fun _ _ hu => .bind_pop hu hr fun fl _ hu =>
      .bind_state (hu.farTransfer rfl _ _ hs) fun u hu =>
        .ok ((hu.changeFlags fun hx => u.flags.load16_same hx fl rfl).setIntDepth _ (.inr ⟨_, rfl⟩))
  | s32 =>
    exact .bind_pop h hr fun _ _ hu => .bind_pop hu hr fun _ _ hu => .bind_pop hu hr fun fl _ hu =>
      .bind_state (hu.farTransfer rfl _ _ hs) fun u hu =>
        .ok ((hu.changeFlags fun hx => u.flags.load32_same hx (u.flags.loadIretd_virt fl) rfl).setIntDepth _ (.inr ⟨_, rfl⟩))

end State.Does

/-! ## Outcomes -/

/-- An outcome that is a next state has a property. -/
def Leads (P : State → Prop) (o : Host.Outcome State Fault Refusal) : Prop := ∀ t, o = .next t → P t

namespace Leads
variable {P : State → Prop} {i : Instr} {s : State}

theorem next {t : State} (h : P t) : Leads P (.next t) := fun _ hu => Host.Outcome.next.inj hu ▸ h

theorem fault (f : Fault) : Leads P (.fault f) := fun _ hu => nomatch hu

theorem finish {x : Except FaultKind State} (h : Yields P x) : Leads P (finish x) := fun t ht => h t (finish_next.mp ht)

/-- The form of most instructions: a computation, and EIP to the next instruction (R61). -/
theorem finish_advance {x : Except FaultKind State} (h : Yields (s.Does i) x) :
    Leads (s.Advances i) (Machine.finish (x >>= fun t => .ok t.advance)) := finish (.bind_state h fun _ ht => .ok ht.advance)

/-- The same with a draw number used up (D27). -/
theorem finish_drawn_advance {x : Except FaultKind State} (h : Yields (s.Does i) x) :
    Leads (s.Advances i) (Machine.finish (x >>= fun t => .ok t.drawn.advance)) :=
  finish (.bind_state h fun _ ht => .ok ht.drawn.advance)

/-- A value is computed, and the state after it. -/
theorem finish_value {α : Type} {x : Except FaultKind α} {f : α → State} (h : ∀ a, P (f a)) :
    Leads P (Machine.finish (x >>= fun a => .ok (f a))) := finish (.bind_value fun a => .ok (h a))

section
variable {body : State → Except FaultKind State} (hb : ∀ u : State, Yields (u.Does i) (body u))
include hb

/-- A repetition does what each of its iterations does, and counts down (R580). -/
theorem repeatLoop (as : Size) (stop : State → Bool) (hc : .ecx ∈ i.regsWritten) (n : Nat) {t : State} (ht : s.Does i t) :
    Leads (s.Advances i) (repeatLoop body as stop n t) := by
  induction n generalizing t with
  | zero => exact next ht.advance
  | succ n ih =>
    unfold Machine.repeatLoop
    split
    · exact fault _
    · next u hu =>
      have hdec : s.Does i (u.decCount as) := (ht.trans (hb t u hu)).decCount as hc
      split
      · exact next hdec.advance
      · exact ih hdec

theorem runOnce : Leads (s.Advances i) (runOnce body s) := finish_advance (hb s)

theorem runString (rep : Bool) (as : Size) (hc : rep = true → .ecx ∈ i.regsWritten) :
    Leads (s.Advances i) (runString rep as body s) := by
  cases rep with
  | true => exact repeatLoop hb as _ (hc rfl) _ (.refl i s)
  | false => exact runOnce hb

theorem runCompare (rep : CmpRep) (as : Size) (hc : rep ≠ .once → .ecx ∈ i.regsWritten) :
    Leads (s.Advances i) (runCompare rep as body s) := by
  cases rep with
  | once => exact runOnce hb
  | repe | repne => exact repeatLoop hb as _ (hc nofun) _ (.refl i s)

end
end Leads

/-! ## Every instruction -/

/-- An instruction that is neither one of the bytes of R210 nor a control transfer does what it may, and advances (R61). -/
theorem exec_advances (i : Instr) (s : State) (hp : i.isPrefix = false) (hm : i.samplesMode = false) :
    Leads (s.Advances i) (exec i s) := by
  have hr := State.Does.refl i s
  cases i with
  -- arithmetic and logic, two operands
  | add w d x | adc w d x => exact .finish_advance (State.binary_does (fun _ h => h) fun a b => s.flags.addFlags_puts a b _)
  | sub w d x | sbb w d x => exact .finish_advance (State.binary_does (fun _ h => h) fun a b => s.flags.subFlags_puts a b _)
  | and w d x | or w d x | xor w d x =>
    exact .finish_drawn_advance (State.binary_does (fun _ h => h) fun a b => s.flags.withLogic_puts s.draws _)
  | cmp w d x => exact .finish_advance (State.compare_does fun a b => s.flags.subFlags_puts a b _)
  | test w d x => exact .finish_drawn_advance (State.compare_does fun a b => s.flags.withLogic_puts s.draws _)
  -- one operand
  | inc w d =>
    exact .finish_advance (State.unary_does (fun _ h => h) fun a => s.flags.keepCarry_puts (s.flags.addFlags_puts a 1 _))
  | dec w d =>
    exact .finish_advance (State.unary_does (fun _ h => h) fun a => s.flags.keepCarry_puts (s.flags.subFlags_puts a 1 _))
  | neg w d => exact .finish_advance (State.unary_does (fun _ h => h) fun a => s.flags.subFlags_puts 0 a _)
  | not w d => exact .finish_advance (State.unary_does (fun _ h => h) fun _ => .refl _ _)
  -- multiply and divide
  | mul w x | imul w x =>
    exact .finish_value fun b => ((hr.setHalves w _ _ (by simp [Instr.regsWritten]) (by simp [Instr.regsWritten])).setStatus
      (s.flags.mulFlags_puts _ _)).drawn.advance
  | imulReg os d x | imulImm os d x v =>
    exact .finish_value fun y => ((hr.setRegSize os _ List.mem_cons_self).setStatus (s.flags.mulFlags_puts _ _)).drawn.advance
  | div w x | idiv w x =>
    exact .finish <| .bind_value fun d => .ite (.error _) <| .ite (.error _) <|
      .ok ((hr.setHalves w _ _ (by simp [Instr.regsWritten]) (by simp [Instr.regsWritten])).setStatus
        (s.flags.divFlags_puts _)).drawn.advance
  -- decimal adjust
  | daa => exact .next ((hr.setReg .w8 _ List.mem_cons_self).setStatus (s.flags.daa_puts _ _)).drawn.advance
  | das => exact .next ((hr.setReg .w8 _ List.mem_cons_self).setStatus (s.flags.das_puts _ _)).drawn.advance
  | aaa => exact .next ((hr.setReg .w16 _ List.mem_cons_self).setStatus (s.flags.aaa_puts _ _)).drawn.advance
  | aas => exact .next ((hr.setReg .w16 _ List.mem_cons_self).setStatus (s.flags.aas_puts _ _)).drawn.advance
  | aam base =>
    exact .finish <| .ite (.error _) <|
      .ok ((hr.setHalves .w8 _ _ List.mem_cons_self List.mem_cons_self).setStatus (s.flags.asciiFlags_puts _ _)).drawn.advance
  | aad base =>
    exact .next ((hr.setHalves .w8 _ _ List.mem_cons_self List.mem_cons_self).setStatus
      (s.flags.asciiFlags_puts _ _)).drawn.advance
  -- shifts and rotates
  | rol w d c | ror w d c | rcl w d c | rcr w d c =>
    exact .finish_advance
      (State.shiftRm_does (fun _ h => h) fun cnt a => s.flags.rotate_puts s.draws (fun _ h => h) _ _ cnt a)
  | shl w d c | shr w d c | sar w d c =>
    exact .finish_advance (State.shiftRm_does (fun _ h => h) fun cnt a => s.flags.shift_puts s.draws _ _ cnt a)
  | shld os d g c | shrd os d g c =>
    exact .finish_advance (State.shiftRm_does (fun _ h => h) fun cnt a => s.flags.doubleShift_puts s.draws cnt a _ _)
  -- bit test and scan
  | bt os d o => exact .finish_value fun x => (hr.setStatus (s.flags.bitFlags_puts _ _)).drawn.advance
  | bts os d o | btr os d o | btc os d o =>
    exact .finish_advance (State.bitModify_does (fun _ h => h) fun b => s.flags.bitFlags_puts s.draws b)
  | bsf os d x | bsr os d x =>
    exact .finish_value fun v => ((hr.setRegSize os _ List.mem_cons_self).setStatus (s.flags.scanFlags_puts _ _)).drawn.advance
  -- moves
  | mov w d x =>
    exact .finish <| .bind_value fun v => .bind_state (hr.writeRm w d v fun _ h => h) fun _ ht => .ok ht.advance
  | movAccMoffs w m => exact .finish_value fun v => (hr.setAcc w v List.mem_cons_self).advance
  | movMoffsAcc w m => exact .finish_advance (hr.memWrite w _ _)
  | movFromSeg os d r => exact .finish_advance (hr.storeWord os d _ fun _ h => h)
  | movToSeg r x =>
    exact .finish <| .bind_value fun v => .bind_state (hr.setSelector v List.mem_cons_self) fun _ ht => .ok ht.advance
  | movFromCr d c => exact .next (hr.setReg .w32 _ List.mem_cons_self).advance
  | movToCr c g => exact .next (hr.setCr _ List.mem_cons_self).advance
  | xchg w x g =>
    exact .finish <| .bind_value fun a =>
      .bind_state (hr.writeRm w x _ fun _ h => List.mem_cons_of_mem _ h) fun _ ht => .ok (ht.setReg w a List.mem_cons_self).advance
  | lea os d m => exact .next (hr.setRegSize os _ List.mem_cons_self).advance
  | movzxByte os d x | movzxWord os d x | movsxByte os d x | movsxWord os d x =>
    exact .finish_value fun v => (hr.setRegSize os _ List.mem_cons_self).advance
  -- far-pointer loads
  | lds os d m | les os d m | lss os d m | lfs os d m | lgs os d m =>
    exact .finish_advance (hr.loadFar os m List.mem_cons_self List.mem_cons_self)
  -- conversions and accumulator moves
  | cbw os => exact .next (hr.extendAcc os List.mem_cons_self).advance
  | cwd os => exact .next (hr.setRegSize os _ List.mem_cons_self).advance
  | lahf => exact .next (hr.setReg .w8 _ List.mem_cons_self).advance
  | sahf => exact .next (hr.setStatus (s.flags.loadAh_puts _)).advance
  | xlat as r => exact .finish_value fun v => (hr.setReg .w8 v List.mem_cons_self).advance
  -- SETcc
  | seto d | setno d | setb d | setae d | sete d | setne d | setbe d | seta d | sets d | setns d | setp d | setnp d | setl d
  | setge d | setle d | setg d => exact .finish (hr.setCond _ d fun _ h => h)
  -- stack
  | push os x =>
    exact .finish <| .bind_value fun v => .bind_state (hr.push List.mem_cons_self os v) fun _ ht => .ok ht.advance
  | pushImm os v | pushf os => exact .finish_advance (hr.push List.mem_cons_self os _)
  | pushEs os | pushCs os | pushSs os | pushDs os | pushFs os | pushGs os => exact .finish (hr.pushSeg List.mem_cons_self os _)
  | pop os g =>
    exact .finish <| .bind_pop hr List.mem_cons_self fun v _ ht =>
      .ok (ht.setRegSize os v (by simp [Instr.regsWritten])).advance
  | popRm os d =>
    exact .finish <| .bind_pop hr List.mem_cons_self fun v _ ht =>
      .bind_state (ht.writeRm os.width d v fun _ h => List.mem_cons_of_mem _ h) fun _ hu => .ok hu.advance
  | popEs os | popSs os | popDs os | popFs os | popGs os => exact .finish (hr.popSeg List.mem_cons_self os List.mem_cons_self)
  | pusha os => exact .finish_advance (hr.pushAll List.mem_cons_self os _)
  | popa os => exact .finish_advance (hr.popAll (by simp [Instr.regsWritten]) os _ (by simp [Instr.regsWritten, pushaOrder]))
  | popf =>
    exact .finish <| .bind_pop hr List.mem_cons_self fun v t ht =>
      .ok (ht.changeFlags fun hx => t.flags.load16_same hx v rfl).advance
  | popfd =>
    exact .finish <| .bind_pop hr List.mem_cons_self fun v t ht =>
      .ok (ht.changeFlags fun hx => t.flags.load32_same hx (t.flags.loadPopfd_virt v) rfl).advance
  | enter os alloc level =>
    exact .finish <| .bind_state (hr.push List.mem_cons_self os _) fun _ ht =>
      .bind_state (ht.enterLevels List.mem_cons_self os _ _ _) fun u hu =>
        .ok ((hu.setRegSize u.sw _ (by simp [Instr.regsWritten])).setSp _ List.mem_cons_self).advance
  | leave os =>
    exact .finish <| .bind_pop (hr.setSp _ List.mem_cons_self) List.mem_cons_self fun v _ ht =>
      .ok (ht.setRegSize os v (by simp [Instr.regsWritten])).advance
  -- strings
  | movsb as r rep | movsw os as r rep =>
    exact .runString (fun u => movsBody_does _ as r u (by simp [Instr.regsWritten]) List.mem_cons_self) rep as fun h => by
      simp [Instr.regsWritten, repHomes, h]
  | cmpsb as r rep | cmpsw os as r rep =>
    exact .runCompare (fun u => cmpsBody_does _ as r u (by simp [Instr.regsWritten]) List.mem_cons_self rfl) rep as fun h => by
      simp [Instr.regsWritten, repHomes, h]
  | stosb as rep | stosw os as rep =>
    exact .runString (fun u => stosBody_does _ as u List.mem_cons_self) rep as fun h => by
      simp [Instr.regsWritten, repHomes, h]
  | lodsb as r rep | lodsw os as r rep =>
    exact .runString (fun u => lodsBody_does _ as r u (by simp [Instr.regsWritten]) List.mem_cons_self) rep as fun h => by
      simp [Instr.regsWritten, repHomes, h]
  | scasb as rep | scasw os as rep =>
    exact .runCompare (fun u => scasBody_does _ as u List.mem_cons_self rfl) rep as fun h => by
      simp [Instr.regsWritten, repHomes, h]
  | insb as rep | insw os as rep =>
    exact .runString (fun u => insBody_does _ as u List.mem_cons_self rfl) rep as fun h => by
      simp [Instr.regsWritten, repHomes, h]
  | outsb as r rep | outsw os as r rep =>
    exact .runString (fun u => outsBody_does _ as r u List.mem_cons_self rfl) rep as fun h => by
      simp [Instr.regsWritten, repHomes, h]
  -- port I/O
  | inImm w p | inDx w => exact .next ((hr.ioRead _ w rfl).setAcc w _ List.mem_cons_self).advance
  | outImm w p | outDx w => exact .next (hr.ioWrite _ w _ rfl).advance
  -- flag control
  | clc | stc | cmc => exact .next (hr.setStatus ((Flags.Puts.refl _ _).put .cf _)).advance
  | cli | sti =>
    exact .next (hr.setFlags fun x hx => by
      cases x with
      | ifl => exact absurd (by simp [Instr.writesFlag]) hx
      | _ => rfl).advance
  | cld | std =>
    exact .next (hr.setFlags fun x hx => by
      cases x with
      | df => exact absurd (by simp [Instr.writesFlag]) hx
      | _ => rfl).advance
  -- no-operations and halt
  | nop | wait => exact .next hr.advance
  | hlt => exact .finish (.ite (.ok (hr.setHalted true rfl).advance) (.error _))
  -- system registers
  | lgdt os m => exact .finish_value fun v => (hr.setGdtr v ⟨os, m, rfl⟩).advance
  | lidt os m => exact .finish_value fun v => (hr.setIdtr v ⟨os, m, rfl⟩).advance
  | sgdt os m | sidt os m => exact .finish_advance (hr.writeTable os m _)
  | lmsw x => exact .finish_value fun v => (hr.setCr _ List.mem_cons_self).advance
  | smsw os d =>
    cases d with
    | mem m => exact .finish_advance (hr.memWrite .w16 _ _)
    | reg r =>
      cases os with
      | s16 => exact .finish (.ok (hr.setReg .w16 _ List.mem_cons_self).advance)
      | s32 => exact .finish (.ok (hr.setReg .w32 _ List.mem_cons_self).drawn.advance)
  | clts => exact .next (hr.setCr _ List.mem_cons_self).advance
  -- invalid encodings
  | invalid c | x87Escape op => exact .fault _
  -- the bytes of R210, and the control transfers
  | prefixEs | prefixCs | prefixSs | prefixDs | prefixFs | prefixGs | prefixOpSize | prefixAddrSize | prefixLock | prefixRepne
  | prefixRep => cases hp
  | _ => cases hm

/-- A control transfer samples the mode, and then does what it may (R140). -/
theorem exec_transfers (i : Instr) (s : State) (hm : i.samplesMode = true) : Leads (s.sampleMode.Does i) (exec i s) := by
  have hr := State.Does.refl i s.sampleMode
  cases i with
  -- conditional branches and loops
  | jo os r | jno os r | jb os r | jae os r | je os r | jne os r | jbe os r | ja os r | js os r | jns os r | jp os r | jnp os r
  | jl os r | jge os r | jle os r | jg os r | jmpRel os r => exact .next (.branch rfl hr _ os _)
  | jcxz os as r => exact .next (.branch rfl hr _ os _)
  | loop os as r | loope os as r | loopne os as r =>
    exact .next (.branch (t := s.decCount as) rfl (hr.decCount as List.mem_cons_self) _ os _)
  -- jumps, calls, returns
  | jmpInd os x => exact .finish_value fun v => hr.setNearEip os _ rfl
  | jmpFar os off sel => exact .finish (hr.farTransfer rfl sel off List.mem_cons_self)
  | jmpFarInd os m => exact .finish <| .bind_value fun _ => hr.farTransfer rfl _ _ List.mem_cons_self
  | callRel os r => exact .finish (hr.callNear rfl List.mem_cons_self os _)
  | callInd os x => exact .finish <| .bind_value fun _ => hr.callNear rfl List.mem_cons_self os _
  | callFar os off sel => exact .finish (hr.callFar rfl List.mem_cons_self List.mem_cons_self os sel off)
  | callFarInd os m =>
    exact .finish <| .bind_value fun _ => hr.callFar rfl List.mem_cons_self List.mem_cons_self os _ _
  | ret os | retImm os v => exact .finish (hr.returnNear rfl List.mem_cons_self os _)
  | retf os | retfImm os v => exact .finish (hr.returnFar rfl List.mem_cons_self List.mem_cons_self os _)
  -- software interrupts and interrupt return
  | int v => exact .finish (.softInterrupt hr v rfl rfl List.mem_cons_self List.mem_cons_self)
  | int3 => exact .finish (.softInterrupt hr 3 rfl rfl List.mem_cons_self List.mem_cons_self)
  | into =>
    show Leads _ (if s.flags.ofl then _ else _)
    split
    · exact .finish (.softInterrupt hr 4 rfl rfl List.mem_cons_self List.mem_cons_self)
    · exact .next (hr.setEip _ rfl)
  | iret os => exact .finish (.interruptReturn os)
  -- no other instruction samples the mode
  | _ => cases hm

/-! ## The frames -/

theorem Instr.samplesMode_of_isPrefix {i : Instr} (h : i.isPrefix = true) : i.samplesMode = false := by
  unfold Instr.isPrefix at h
  split at h
  case h_12 => cases h
  all_goals rfl

/-- What a unit that completes has done: a byte of R210 has changed the transient state, a control transfer has sampled the mode and
done what it may, and every other instruction has done what it may and advanced. -/
theorem exec_cases {i : Instr} {s t : State} (h : exec i s = .next t) :
    (i.samplesMode = false ∧ ∃ p, t = s.setPfx p) ∨ (i.samplesMode = true ∧ s.sampleMode.Does i t)
      ∨ (i.samplesMode = false ∧ s.Advances i t) := by
  cases hm : i.samplesMode with
  | true => exact .inr (.inl ⟨rfl, exec_transfers i s hm t h⟩)
  | false =>
    cases hp : i.isPrefix with
    | true =>
      obtain ⟨p, hex⟩ := exec_of_isPrefix hp s
      exact .inl ⟨rfl, p, Host.Outcome.next.inj (h.symm.trans hex)⟩
    | false => exact .inr (.inr ⟨rfl, exec_advances i s hp hm t h⟩)

section
variable {i : Instr} {s t : State} (h : exec i s = .next t)
include h

/-- A part of the state that an instruction may not write is as it was, EIP apart. -/
theorem exec_same (x : Item) (hx : ¬i.writes x) (heip : x ≠ .eip) : x.get t = x.get s := by
  rcases exec_cases h with ⟨-, p, rfl⟩ | ⟨-, ht⟩ | ⟨-, u, hu, rfl⟩
  · cases x <;> rfl
  · refine (ht.same x hx).trans ?_
    cases x <;> rfl
  · refine Eq.trans ?_ (hu.same x hx)
    cases x with
    | eip => exact absurd rfl heip
    | _ => rfl

/-- The same of a part of FLAGS. -/
theorem exec_sameFlag (x : FlagItem) (hx : ¬i.writesFlag x) : x.get t.flags = x.get s.flags := exec_same h (.flag x) hx nofun

/-- A segment register is as it was, or has been loaded (R72). -/
theorem exec_loads (r : SegReg) : t.segs.get r = s.segs.get r ∨ SegLoaded r (t.segs.get r) := by
  rcases exec_cases h with ⟨-, p, rfl⟩ | ⟨-, ht⟩ | ⟨-, u, hu, rfl⟩
  · exact .inl rfl
  · exact ht.loads r
  · exact hu.loads r

theorem exec_mode_of_samplesMode (hm : i.samplesMode = true) : t.mode = s.sampleMode.mode := (exec_transfers i s hm t h).mode

theorem exec_mode_of_not_samplesMode (hm : i.samplesMode = false) : t.mode = s.mode := by
  rcases exec_cases h with ⟨-, p, rfl⟩ | ⟨hm', -⟩ | ⟨-, u, hu, rfl⟩
  · rfl
  · exact absurd (hm.symm.trans hm') nofun
  · exact hu.mode

/-- EIP goes on to the next instruction where no control transfer redirects it (R61, R205). -/
theorem exec_eip (hp : i.isPrefix = false) (hm : i.samplesMode = false) : t.eip = s.next := by
  obtain ⟨u, hu, rfl⟩ := exec_advances i s hp hm t h
  have heip : u.eip = s.eip := hu.same .eip fun hs => absurd (hm.symm.trans hs) nofun
  simp [State.advance, State.next, heip, hu.cyc]

end

/-- Settles O18: a register is a part of the state. -/
theorem registerFrame : Obligations.RegisterFrame := fun _ _ _ h r hr => exec_same h (.reg r) hr nofun

/-- Settles O21: a segment register is a part of the state, and what is loaded into one has its descriptor. -/
theorem segmentFrame : Obligations.SegmentFrame := fun _ _ _ h r => ⟨fun hr => exec_same h (.seg r) hr nofun, exec_loads h r⟩

/-- Settles O19: each flag is a part of FLAGS, and `Instr.writesFlag` gives the instructions that may write it. -/
theorem flagFrame : Obligations.FlagFrame := by
  intro i s t h
  have hsame := fun x => exec_sameFlag h x
  have hvirt : t.flags.virt = s.flags.virt := hsame .virt id
  obtain ⟨hvm, hvif, hvip⟩ : _ ∧ _ ∧ _ := by simpa only [Flags.virt, Prod.mk.injEq] using hvirt
  refine ⟨fun x hx => hsame (.status x) hx, fun h1 h2 h3 => hsame .df ?_, fun h1 h2 h3 h4 => hsame .ifl ?_,
    fun h1 h2 => hsame .tf ?_, fun h1 => ⟨hsame .iopl ?_, hsame .nt ?_⟩, fun h1 => ⟨hsame .rf ?_, hsame .id ?_⟩,
    fun h1 h2 => hsame .ac ?_, hvm, hvif, hvip⟩
  all_goals simp_all [Instr.writesFlag]

/-- Settles O22: the other parts of the state, the mode by what samples it, and EIP by the advance. -/
theorem systemFrame : Obligations.SystemFrame := by
  refine ⟨fun i s t h => ?_, fun i s t h hp hm => exec_eip h hp hm⟩
  have hsame := fun x hx => exec_same h x hx
  refine ⟨fun c hc => hsame (.cr c) hc nofun, fun hi => hsame .gdtr (fun ⟨os, m, he⟩ => hi os m he) nofun,
    fun hi => hsame .idtr (fun ⟨os, m, he⟩ => hi os m he) nofun, exec_mode_of_samplesMode h, exec_mode_of_not_samplesMode h,
    hsame .latch id nofun, fun hi => hsame .halted hi nofun, fun hsoft hiret => hsame .intDepth ?_ nofun,
    fun hi => hsame .ioLog ?_ nofun⟩
  · rintro (hs | ⟨os, he⟩)
    · exact absurd (hsoft.symm.trans hs) nofun
    · exact hiret os he
  · exact fun hio => absurd (hi.symm.trans hio) nofun

end Sys2Proof.Machine
end

section
/-! SUPPORT. Accesses, byte by byte: the first address outside memory, the number that the bytes of a read are, and what a store
leaves at each address. Then what is built on them: linear addresses, the fetch of an instruction byte, and loads of selectors. -/

namespace Sys2Proof.Machine

/-! ## Accesses (R121, R122) -/

/-- The address that an access reports is the first that is at or above P_MEM_SIZE (R121). -/
theorem State.badAddr_eq_some {s : State} {lin : BitVec 32} {n k : Nat} (hk : k < n)
    (hbad : s.params.memSize ≤ (lin + BitVec.ofNat 32 k).toNat)
    (hgood : ∀ j < k, (lin + BitVec.ofNat 32 j).toNat < s.params.memSize) :
    s.badAddr lin n = some (lin + BitVec.ofNat 32 k) := by
  obtain ⟨n, rfl⟩ := Nat.exists_eq_add_one_of_ne_zero (Nat.ne_zero_of_lt hk)
  induction k generalizing lin n with
  | zero =>
    rw [BitVec.add_zero] at hbad ⊢
    exact if_pos hbad
  | succ k ih =>
    have h0 : lin.toNat < s.params.memSize := by simpa using hgood 0 (Nat.succ_pos k)
    obtain ⟨n, rfl⟩ := Nat.exists_eq_add_one_of_ne_zero (Nat.ne_zero_of_lt (Nat.lt_of_succ_lt_succ hk))
    rw [State.badAddr, if_neg (Nat.not_le.mpr h0), ← add_one_add]
    refine ih (by rwa [add_one_add]) (fun j hj => ?_) n (Nat.lt_of_succ_lt_succ hk)
    rw [add_one_add]
    exact hgood (j + 1) (Nat.succ_lt_succ hj)

theorem State.mapped_of_forall {s : State} {lin : BitVec 32} {n : Nat}
    (h : ∀ j < n, (lin + BitVec.ofNat 32 j).toNat < s.params.memSize) : s.mapped lin n = true :=
  (s.mapped_iff lin n).mpr ((s.badAddr_eq_none lin n).mpr h)

section
variable {s : State} {w : Width} {lin a : BitVec 32}

theorem State.memRead_of_badAddr (h : s.badAddr lin w.bytes = some a) : s.memRead w lin = .error (.memoryBounds a) := by
  simp [State.memRead, h]

theorem State.memWrite_of_badAddr (v : BitVec w.bits) (h : s.badAddr lin w.bytes = some a) :
    s.memWrite w lin v = .error (.memoryBounds a) := by
  simp [State.memWrite, h]

theorem State.memRead64_of_badAddr (h : s.badAddr lin 8 = some a) : s.memRead64 lin = .error (.memoryBounds a) := by
  simp [State.memRead64, h]

end

/-- The number that n bytes from an address on are, the least significant first (R122). -/
def State.bytesValue (s : State) (lin : BitVec 32) (n : Nat) : Nat :=
  ((List.range n).map fun k => (s.byteAt (lin + BitVec.ofNat 32 k)).toNat * 256 ^ k).sum

section
variable (s : State) (lin : BitVec 32)

theorem State.bytesValue_zero : s.bytesValue lin 0 = 0 := rfl

theorem State.bytesValue_succ (n : Nat) :
    s.bytesValue lin (n + 1) = s.bytesValue lin n + (s.byteAt (lin + BitVec.ofNat 32 n)).toNat * 256 ^ n := by
  simp [State.bytesValue, List.range_succ]

theorem State.bytesValue_add (m n : Nat) :
    s.bytesValue lin (m + n) = s.bytesValue lin m + s.bytesValue (lin + BitVec.ofNat 32 m) n * 256 ^ m := by
  induction n with
  | zero => simp [State.bytesValue_zero]
  | succ n ih =>
    rw [← Nat.add_assoc, State.bytesValue_succ, ih, State.bytesValue_succ, BitVec.add_assoc, ← BitVec.ofNat_add]
    ring

theorem toNat_append_eq {m n : Nat} (x : BitVec m) (y : BitVec n) : (x ++ y).toNat = y.toNat + x.toNat * 2 ^ n := by
  rw [BitVec.toNat_append, ← Nat.shiftLeft_add_eq_or_of_lt y.isLt, Nat.shiftLeft_eq, Nat.add_comm]

theorem State.load_toNat (w : Width) : (s.load lin w).toNat = s.bytesValue lin w.bytes := by
  cases w with
  | w8 => simp [State.load, State.bytesValue_succ, State.bytesValue_zero]
  | w16 =>
    refine (toNat_append_eq (s.byteAt (lin + 1)) (s.byteAt lin)).trans ?_
    simp [State.bytesValue_succ, State.bytesValue_zero]
  | w32 =>
    refine (toNat_append_eq (s.byteAt (lin + 3) ++ s.byteAt (lin + 2) ++ s.byteAt (lin + 1)) (s.byteAt lin)).trans ?_
    rw [toNat_append_eq, toNat_append_eq]
    simp [State.bytesValue_succ, State.bytesValue_zero]
    omega

theorem State.load64_toNat : (s.load (lin + 4) .w32 ++ s.load lin .w32).toNat = s.bytesValue lin 8 := by
  rw [toNat_append_eq, State.load_toNat, State.load_toNat]
  exact (s.bytesValue_add lin 4 4).symm

end

/-- The bytes of a value, the least significant first (R122). -/
def valueBytes (w : Width) (v : BitVec w.bits) : List Byte := (List.range w.bytes).map fun k => v.extractLsb' (8 * k) 8

theorem valueBytes_length (w : Width) (v : BitVec w.bits) : (valueBytes w v).length = w.bytes := by simp [valueBytes]

section
variable (s : State) (lin : BitVec 32) (w : Width) (v : BitVec w.bits)

/-- A store is the block write of the bytes of its value. -/
theorem State.store_eq_hostBlockWrite : s.store lin w v = s.hostBlockWrite lin (valueBytes w v) := by
  cases w with
  | w8 => exact congrArg (s.setByteAt lin) (BitVec.extractLsb'_eq_self (x := v)).symm
  | w16 => rfl
  | w32 =>
    have h2 : lin + 1 + 1 = lin + 2 := BitVec.add_assoc lin 1 1
    have h3 : lin + 2 + 1 = lin + 3 := BitVec.add_assoc lin 2 1
    simp only [State.store]
    rw [← h3, ← h2]
    rfl

/-- What a block write leaves, for the one that a store is (O17). -/
theorem State.store_bytes :
    (s.store lin w v).setMem s.mem = s
      ∧ (∀ k < w.bytes, (s.store lin w v).byteAt (lin + BitVec.ofNat 32 k) = v.extractLsb' (8 * k) 8)
      ∧ ∀ a, Outside a [(lin, w.bytes)] → (s.store lin w v).byteAt a = s.byteAt a := by
  obtain ⟨-, -, -, -, -, hblock⟩ := hostRequests
  have hlen : (valueBytes w v).length ≤ 2 ^ 32 := by
    rw [valueBytes_length]
    cases w <;> decide
  obtain ⟨hmem, hin, hout⟩ := hblock s lin _ hlen
  rw [← s.store_eq_hostBlockWrite] at hmem hin hout
  rw [valueBytes_length] at hout
  refine ⟨hmem, fun k hk => ?_, hout⟩
  rw [hin k ((valueBytes_length w v).symm ▸ hk)]
  simp [valueBytes]

end

/-- Settles O24: an access faults with the first bad address, and otherwise it is a load or a store. -/
theorem memoryPrimitives : Obligations.MemoryPrimitives := by
  refine ⟨fun s w lin v k hk hbad hgood => ?_, fun s lin k hk hbad hgood => ?_, fun s w lin h => ?_, fun s lin h => ?_,
    fun s w lin v h => ?_⟩
  · have hfirst := State.badAddr_eq_some hk hbad hgood
    exact ⟨State.memRead_of_badAddr hfirst, State.memWrite_of_badAddr v hfirst⟩
  · exact State.memRead64_of_badAddr (State.badAddr_eq_some hk hbad hgood)
  · exact ⟨_, State.memRead_of (State.mapped_of_forall h), s.load_toNat lin w⟩
  · exact ⟨_, State.memRead64_iff.mpr ⟨State.mapped_of_forall h, rfl⟩, s.load64_toNat lin⟩
  · exact ⟨_, State.memWrite_of v (State.mapped_of_forall h), s.store_bytes lin w v⟩

/-! ## Linear addresses and fetching (R130, R138) -/

/-- Settles O25: both modes by what shift and sum are on numbers. -/
theorem linearRule : Obligations.LinearRule := by
  intro s r off
  cases hm : s.mode with
  | real => simp [State.linear, hm, Nat.shiftLeft_eq]
  | prot => simp [State.linear, hm]

section
variable {s : State} {k : Nat}

theorem State.fetchByte_of_above (hm : s.mode = .prot) (hl : s.segs.cs.desc.limit.toNat < (s.fetchOffset k).toNat) :
    s.fetchByte k = .error (.generalProtection (.offset (s.fetchOffset k))) := if_pos ⟨hm, hl⟩

theorem State.fetchByte_of_within (h : s.mode = .real ∨ (s.fetchOffset k).toNat ≤ s.segs.cs.desc.limit.toNat) :
    s.fetchByte k = s.memRead .w8 (s.linear .cs (s.fetchOffset k)) := by
  refine if_neg fun ⟨hm, hl⟩ => ?_
  rcases h with hr | hle
  · exact absurd (hm.symm.trans hr) nofun
  · exact absurd hl (Nat.not_lt.mpr hle)

end

/-- Settles O6: the limit is tested first, and a fetch within it is a read of one byte. -/
theorem fetchRule : Obligations.FetchRule := by
  refine fun s k => ⟨State.fetchByte_of_above, fun hin hbad => ?_, fun hin hgood => ?_⟩
  · refine (State.fetchByte_of_within hin).trans (State.memRead_of_badAddr ?_)
    exact if_pos hbad
  · refine (State.fetchByte_of_within hin).trans (State.memRead_of (w := .w8) (State.mapped_of_forall fun j hj => ?_))
    obtain rfl := Nat.lt_one_iff.mp hj
    rwa [BitVec.add_zero]

/-! ## Selectors and descriptors (R131 to R137) -/

theorem realSegment_eq (r : SegReg) (v : BitVec 16) :
    realSegment r v = ⟨v, ⟨BitVec.ofNat 32 (v.toNat * 16), 0x0000FFFF, decide (r = .cs), true, false, false⟩⟩ := by
  have hbase : v.setWidth 32 <<< 4 = BitVec.ofNat 32 (v.toNat * 16) := by
    apply BitVec.eq_of_toNat_eq
    simp [Nat.shiftLeft_eq]
  rw [realSegment, hbase]

/-- The entry of a selector is at eight times its index (R132). -/
theorem gdtOffset_eq (v : BitVec 16) : gdtOffset v = BitVec.ofNat 32 (v.toNat / 8 * 8) := by
  have hmask : v &&& (0xFFF8 : BitVec 16) = v >>> 3 <<< 3 := by
    ext k hk
    interval_cases k <;> simp
  rw [gdtOffset, hmask]
  apply BitVec.eq_of_toNat_eq
  simp [Nat.shiftLeft_eq, Nat.shiftRight_eq_div_pow]
  omega

theorem gdtOffset_toNat (v : BitVec 16) : (gdtOffset v).toNat = v.toNat / 8 * 8 := by
  rw [gdtOffset_eq, BitVec.toNat_ofNat]
  omega

theorem selectorIndex_eq_zero (v : BitVec 16) : v.extractLsb' 3 13 = 0 ↔ v.toNat / 8 = 0 := by
  rw [← BitVec.toNat_inj]
  simp [Nat.shiftRight_eq_div_pow]
  omega

section
variable {s : State} {r : SegReg} {v : BitVec 16} (hm : s.mode = .prot)
include hm

/-- A null selector for CS faults (R136). -/
theorem State.setSelector_of_null (hr : r = .cs) (hv : v.toNat / 8 = 0) :
    s.setSelector r v = .error (.generalProtection (.selector v)) := by
  simp [State.setSelector, hm, hr, (selectorIndex_eq_zero v).mpr hv]

/-- A selector beyond the GDT limit faults (R137). -/
theorem State.setSelector_of_beyond (hl : s.gdtr.limit.toNat < v.toNat / 8 * 8 + 7) :
    s.setSelector r v = .error (.generalProtection (.selector v)) := by
  simp [State.setSelector, hm, gdtOffset_toNat, hl]

/-- Any other selector is read from its entry (R132). -/
theorem State.setSelector_of_within (h0 : r ≠ .cs ∨ v.toNat / 8 ≠ 0) (hl : v.toNat / 8 * 8 + 7 ≤ s.gdtr.limit.toNat) :
    s.setSelector r v = (s.memRead64 (s.gdtr.base + BitVec.ofNat 32 (v.toNat / 8 * 8)) >>= fun d =>
      .ok (s.setSeg r ⟨v, decodeDescriptor d⟩)) := by
  have hnull : ¬(r = .cs ∧ v.extractLsb' 3 13 = 0) := fun ⟨hr, hv⟩ =>
    h0.elim (absurd hr) (absurd ((selectorIndex_eq_zero v).mp hv))
  have hlimit : ¬s.gdtr.limit.toNat < (gdtOffset v).toNat + 7 := by
    rw [gdtOffset_toNat]
    exact Nat.not_lt.mpr hl
  simp only [← gdtOffset_eq, State.setSelector, hm, if_neg hnull, if_neg hlimit]

end

theorem decodeDescriptor_base (d : BitVec 64) :
    (decodeDescriptor d).base.toNat = d.toNat / 2 ^ 56 * 2 ^ 24 + d.toNat / 2 ^ 16 % 2 ^ 24 := by
  have := d.isLt
  refine (toNat_append_eq (d.extractLsb' 56 8) (d.extractLsb' 16 24)).trans ?_
  simp [Nat.shiftRight_eq_div_pow]
  omega

/-- The 20-bit limit of a descriptor, before the granularity bit (R133). -/
def rawLimit (d : BitVec 64) : Nat := d.toNat / 2 ^ 48 % 16 * 2 ^ 16 + d.toNat % 2 ^ 16

/-- The effective limit counts bytes where G = 0, and units of 4 KiB where G = 1 (R134). -/
theorem decodeDescriptor_limit (d : BitVec 64) :
    (decodeDescriptor d).limit.toNat = if d.getLsbD 55 then rawLimit d * 4096 + 4095 else rawLimit d := by
  have hraw : (d.extractLsb' 48 4 ++ d.extractLsb' 0 16).toNat = rawLimit d := by
    rw [toNat_append_eq]
    simp [rawLimit, Nat.shiftRight_eq_div_pow, Nat.add_comm]
  rw [decodeDescriptor]
  split
  · refine (toNat_append_eq (d.extractLsb' 48 4 ++ d.extractLsb' 0 16) (0xFFF : BitVec 12)).trans ?_
    rw [hraw]
    exact Nat.add_comm _ _
  · rw [BitVec.append_assoc]
    refine (toNat_append_eq (0 : BitVec 12) (d.extractLsb' 48 4 ++ d.extractLsb' 0 16)).trans ?_
    simp [hraw]

/-- Settles O26: the tests of a load in their order, and the fields of a descriptor as numbers. -/
theorem setSelectorRule : Obligations.SetSelectorRule := by
  refine ⟨fun s r v hm => ?_, fun s r v hm => ?_, fun d => ?_⟩
  · refine ⟨s.setSeg r (realSegment r v), by simp [State.setSelector, hm], ?_, fun q hq => ?_, rfl⟩
    · rw [← realSegment_eq]
      exact (Segs.get_set s.segs r r _).trans (if_pos rfl)
    · exact (Segs.get_set s.segs r q _).trans (if_neg hq)
  · refine ⟨State.setSelector_of_null hm, State.setSelector_of_beyond hm, fun h0 hl => ⟨fun k hk => ?_, fun d hd => ?_⟩⟩
    · rw [State.setSelector_of_within hm h0 hl, hk]
      rfl
    · rw [State.setSelector_of_within hm h0 hl, hd]
      rfl
  · have hlimit := decodeDescriptor_limit d
    exact ⟨decodeDescriptor_base d, fun hg => hlimit.trans (if_neg (ne_true_of_eq_false hg)),
      fun hg => hlimit.trans (if_pos hg), rfl, rfl, rfl, rfl⟩

end Sys2Proof.Machine
end

section
/-! SUPPORT. Control transfers and ports: what EIP takes (R520), and the whole next state of the branches, calls and returns, and of
IN and OUT. -/

namespace Sys2Proof.Machine

/-! ## Near targets (R520) -/

theorem truncTo_toNat (sz : Size) (v : BitVec 32) : (truncTo sz v).toNat = v.toNat % 2 ^ sz.width.bits := by
  cases sz with
  | s16 => exact (BitVec.toNat_setWidth_of_le (by decide)).trans (BitVec.toNat_setWidth 16 v)
  | s32 => exact (Nat.mod_eq_of_lt v.isLt).symm

theorem minSize_bits (a b : Size) : (minSize a b).width.bits = min a.width.bits b.width.bits := by
  cases a <;> cases b <;> rfl

/-- A near target is counted from the next instruction, modulo 2^OS; the displacement is a signed number. -/
theorem State.nearTarget_toNat (s : State) (os : Size) (rel : BitVec 32) :
    ((s.nearTarget os rel).toNat : Int) = (s.next.toNat + rel.toInt) % 2 ^ os.width.bits := by
  have hdvd : 2 ^ os.width.bits ∣ 2 ^ 32 := by cases os <;> decide
  have hzero : (4294967296 : Int) % 2 ^ os.width.bits = 0 := by exact_mod_cast Nat.mod_eq_zero_of_dvd hdvd
  rw [State.nearTarget, truncTo_toNat, BitVec.toNat_add, Nat.mod_mod_of_dvd _ hdvd, BitVec.toInt_eq_toNat_cond]
  split
  · norm_cast
  · push_cast
    rw [← add_sub_assoc, Int.sub_emod, hzero, sub_zero, Int.emod_emod]

theorem State.setNearEip_toNat (s : State) (os : Size) (t : BitVec 32) :
    (s.setNearEip os t).eip.toNat = t.toNat % 2 ^ min os.width.bits s.cyc.csz.width.bits := by
  rw [← minSize_bits]
  exact truncTo_toNat _ t

theorem relValue_short_toInt (b : Byte) : (relValue (.short b)).toInt = b.toInt :=
  BitVec.toInt_signExtend_of_le (by decide)

/-! ## Counts (R524) -/

theorem State.count_toNat (s : State) (as : Size) : (s.count as).toNat = (s.reg as.width .ecx).toNat :=
  BitVec.toNat_setWidth_of_le (by cases as <;> decide)

theorem State.count_eq_zero (s : State) (as : Size) : s.count as = 0 ↔ s.reg as.width .ecx = 0 := by
  rw [← BitVec.toNat_inj, ← BitVec.toNat_inj, s.count_toNat]
  rfl

theorem setWidth_sub_one (x : BitVec 16) : (x.setWidth 32 - 1).setWidth 16 = x - 1 := by
  bv_omega

theorem State.decCount_eq (s : State) (as : Size) : s.decCount as = s.setReg as.width .ecx (s.reg as.width .ecx - 1) := by
  have h : (s.count as - 1).setWidth as.width.bits = s.reg as.width .ecx - 1 := by
    cases as with
    | s16 => exact setWidth_sub_one (s.reg .w16 .ecx)
    | s32 => rfl
  rw [State.decCount, h]

/-- LOOP and its forms branch by the count that they leave and a condition on ZF. -/
theorem State.loopBranch_eq (s : State) (more : Bool) (os as : Size) (rel : Byte) :
    s.loopBranch more os as rel
      = (s.setReg as.width .ecx (s.reg as.width .ecx - 1)).branch (decide (s.reg as.width .ecx - 1 ≠ 0) && more) os
          (rel.signExtend 32) := by
  have hc : (s.decCount as).count as ≠ 0 ↔ s.reg as.width .ecx - 1 ≠ 0 := by
    rw [ne_eq, State.count_eq_zero, State.decCount_eq, State.reg_setReg_self]
  rw [State.loopBranch]
  simp only [hc]
  rw [s.decCount_eq]

/-- A branch goes to its near target, or on to the next instruction, in the sampled mode (R521). -/
theorem State.branch_eq (s : State) (b : Bool) (os : Size) (rel : BitVec 32) :
    s.branch b os rel
      = if b = true then s.sampleMode.setNearEip os (s.sampleMode.nearTarget os rel) else s.sampleMode.advance := rfl

/-- Settles O51: each branch is `State.branch` of its condition. -/
theorem branchResults : Obligations.BranchResults := by
  refine ⟨fun s os => ⟨s.nearTarget_toNat os, s.setNearEip_toNat os, fun t => rfl, relValue_short_toInt⟩,
    fun s os as => ⟨fun c rel => ?_, fun rel => rfl, fun rel => ?_, fun rel => ⟨?_, ?_, ?_⟩⟩⟩
  · cases c <;> rfl
  · refine congrArg Host.Outcome.next ((s.branch_eq _ os _).trans ?_)
    simp only [decide_eq_true_eq, ← BitVec.toNat_inj, s.count_toNat]
    rfl
  all_goals
    refine congrArg Host.Outcome.next ((s.loopBranch_eq _ os as rel).trans ((State.branch_eq _ _ os _).trans ?_))
    simp only [Bool.and_true, Bool.and_eq_true, Bool.not_eq_true', decide_eq_true_eq]
    rfl

/-! ## Near calls and returns (R526 to R534) -/

theorem Regs.set_get (r : Regs) (i : Reg) : r.set i (r.get i) = r := by cases i <;> rfl

theorem setLow16_self (v : BitVec 32) : setLow16 v (v.setWidth 16) = v := by
  rw [setLow16, BitVec.setWidth_eq_extractLsb' (by decide)]
  exact (BitVec.extractLsb'_append_extractLsb'_eq_extractLsb' (x := v) (start₁ := 0) (start₂ := 16) (len₂ := 16) rfl).trans
    BitVec.extractLsb'_eq_self

/-- The stack pointer written back is no change: the bits outside it are kept (R370). -/
theorem State.setSp_sp (s : State) : s.setSp s.sp = s := by
  unfold State.setSp State.sp
  cases s.sw with
  | s16 =>
    simp [State.setReg, State.setRegs, Regs.write, State.reg, Regs.read, setLow16_self, Regs.set_get]
  | s32 => exact congrArg s.setRegs (s.regs.set_get .esp)

theorem State.callNear_of {s : State} {os : Size} (target : BitVec 32) (h : s.slotOk os 1 = true) :
    s.callNear os target = .ok ((s.pushed os (s.next.setWidth os.width.bits)).setNearEip os target) := by
  rw [State.callNear, State.push_of _ h]
  rfl

theorem State.returnNear_of {s : State} {os : Size} (release : BitVec 16) (h : s.popOk os = true) :
    s.returnNear os release = .ok (((s.popped os).setSp ((s.popped os).sp + release.setWidth 32)).setNearEip os
      ((s.popValue os).setWidth 32)) := by
  rw [State.returnNear, State.pop_of h]
  rfl

theorem State.setSp_release_zero (s : State) : s.setSp (s.sp + (0 : BitVec 16).setWidth 32) = s := by
  have h0 : s.sp + (0 : BitVec 16).setWidth 32 = s.sp := BitVec.add_zero s.sp
  rw [h0, State.setSp_sp]

theorem State.popped_cyc (s : State) (n : Size) : (s.popped n).cyc = s.cyc := s.setSp_cyc _

/-- An update that keeps the code size of the cycle keeps what EIP takes of a near target. -/
theorem State.setNearEip_of_cyc {s t : State} (h : t.cyc = s.cyc) (os : Size) (v : BitVec 32) :
    t.setNearEip os v = t.setEip (truncTo (minSize os s.cyc.csz) v) := by
  rw [State.setNearEip, h]

/-- Settles O52: each of these is one access, and a near target. -/
theorem nearCallResults : Obligations.NearCallResults := by
  intro s os
  refine ⟨fun src hsrc => ?_, fun hslot => ⟨fun rel => ?_, fun src hsrc => ?_⟩, fun hpop => ⟨?_, fun imm => ?_⟩⟩
  · exact finish_of_ok (bind_ok.mpr ⟨_, State.readRm_of hsrc, rfl⟩)
  · refine finish_of_ok ((State.callNear_of _ hslot).trans ?_)
    rw [State.setNearEip_of_cyc (s.sampleMode.pushed_cyc os _), BitVec.ofNat_toNat]
    rfl
  · refine finish_of_ok (bind_ok.mpr ⟨_, State.readRm_of hsrc, (State.callNear_of _ hslot).trans ?_⟩)
    rw [State.setNearEip_of_cyc (s.sampleMode.pushed_cyc os _), BitVec.ofNat_toNat]
    rfl
  · refine finish_of_ok ((State.returnNear_of 0 hpop).trans ?_)
    rw [State.setSp_release_zero, State.setNearEip_of_cyc (s.sampleMode.popped_cyc os)]
    rfl
  · refine finish_of_ok ((State.returnNear_of imm hpop).trans ?_)
    rw [State.setNearEip_of_cyc ((State.setSp_cyc _ _).trans (s.sampleMode.popped_cyc os))]
    rfl

/-! ## Far transfers (R527 to R535) -/

/-- A far transfer loads CS and then truncates the offset to the new code size (R529). -/
theorem State.farTransfer_of_setSelector {s t : State} {sel : BitVec 16} (off : BitVec 32) (h : s.setSelector .cs sel = .ok t) :
    s.farTransfer sel off = .ok (t.setEip (truncTo t.codeSize off)) := by
  rw [State.farTransfer, h]
  rfl

theorem State.truncTo_codeSize (s : State) (off : BitVec 32) :
    truncTo s.codeSize off
      = if s.mode = .prot ∧ s.segs.cs.desc.is32 = true then off else BitVec.ofNat 32 (off.toNat % 2 ^ 16) := by
  have h16 : truncTo .s16 off = BitVec.ofNat 32 (off.toNat % 2 ^ 16) := by
    apply BitVec.eq_of_toNat_eq
    rw [truncTo_toNat, BitVec.toNat_ofNat]
    exact (Nat.mod_eq_of_lt (Nat.lt_of_lt_of_le (Nat.mod_lt _ (by decide)) (by decide))).symm
  unfold State.codeSize
  cases s.mode with
  | real => simpa using h16
  | prot =>
    cases s.segs.cs.desc.is32 with
    | true => simp [truncTo]
    | false => simpa using h16

theorem State.callFar_of {s : State} {os : Size} {sel : BitVec 16} (off : BitVec 32) (hsel : s.selectorOk .cs sel = true)
    (h1 : s.slotOk os 1 = true) (h2 : s.slotOk os 2 = true) :
    s.callFar os sel off = .ok (((s.transferred sel off).pushed os (s.segs.cs.sel.setWidth os.width.bits)).pushed os
      (s.next.setWidth os.width.bits)) := by
  have hslot1 : (s.transferred sel off).slotOk os 1 = true := h1
  have hslot2 : ((s.transferred sel off).pushed os (s.segs.cs.sel.setWidth os.width.bits)).slotOk os 1 = true := by
    rw [State.slotOk_pushed]
    exact h2
  simp only [State.callFar, bind_ok]
  exact ⟨_, State.farTransfer_of hsel, _, State.push_of _ hslot1, State.push_of _ hslot2⟩

@[simp] theorem State.selectorOk_setSp (s : State) (v : BitVec 32) (r : SegReg) (sel : BitVec 16) :
    (s.setSp v).selectorOk r sel = s.selectorOk r sel := by
  simp [State.selectorOk, State.mapped]

theorem State.returnFar_of {s : State} {os : Size} (release : BitVec 16) (h1 : s.popOk os = true)
    (h2 : (s.popped os).popOk os = true) (hsel : s.selectorOk .cs (((s.popped os).popValue os).setWidth 16) = true) :
    s.returnFar os release
      = .ok ((((s.popped os).popped os).setSp (((s.popped os).popped os).sp + release.setWidth 32)).transferred
          (((s.popped os).popValue os).setWidth 16) ((s.popValue os).setWidth 32)) := by
  have hsel' : (((s.popped os).popped os).setSp (((s.popped os).popped os).sp + release.setWidth 32)).selectorOk .cs
      (((s.popped os).popValue os).setWidth 16) = true := by simpa [State.popped] using hsel
  rw [State.returnFar, bind_ok]
  exact ⟨_, State.pop_of h1, bind_ok.mpr ⟨_, State.pop_of h2, State.farTransfer_of hsel'⟩⟩

/-- Settles O53: a far transfer is a load of CS, and the others are accesses about one. -/
theorem farCallResults : Obligations.FarCallResults := by
  refine ⟨fun s sel off => ⟨fun k hk => ?_, fun t ht => ?_⟩, fun s os => ⟨fun sel off hsel => ⟨?_, fun h1 h2 => ?_⟩,
    fun p hp hsel => ⟨?_, fun h1 h2 => ?_⟩, fun h1 h2 hsel => ⟨?_, fun imm => ?_⟩⟩⟩
  · rw [State.farTransfer, hk]
    rfl
  · rw [State.farTransfer_of_setSelector off ht, State.truncTo_codeSize]
  · exact finish_of_ok (State.farTransfer_of hsel)
  · simp only [BitVec.ofNat_toNat]
    exact finish_of_ok (State.callFar_of off hsel h1 h2)
  · exact finish_of_ok (bind_ok.mpr ⟨_, State.readFar_of hp, State.farTransfer_of hsel⟩)
  · simp only [BitVec.ofNat_toNat]
    exact finish_of_ok (bind_ok.mpr ⟨_, State.readFar_of hp, State.callFar_of _ hsel h1 h2⟩)
  · rw [BitVec.ofNat_toNat] at hsel ⊢
    refine finish_of_ok ((State.returnFar_of 0 h1 h2 hsel).trans ?_)
    rw [State.setSp_release_zero]
  · rw [BitVec.ofNat_toNat] at hsel ⊢
    exact finish_of_ok (State.returnFar_of imm h1 h2 hsel)

/-! ## Ports (R170 to R174, R620 to R623) -/

theorem State.deviceOf_registerPorts (s : State) (ports : List (BitVec 16)) (d : Nat) (port : BitVec 16) :
    (s.registerPorts ports d).deviceOf port = if port ∈ ports then some d else s.deviceOf port := by
  by_cases h : port ∈ ports <;> simp [State.deviceOf, h]

theorem State.unmappedValue_w32 (s : State) : s.unmappedValue .w32 = 0x0000FFFF ∨ s.unmappedValue .w32 = 0xFFFFFFFF := by
  unfold State.unmappedValue
  cases s.params.unmappedIn32 with
  | lowOnes => exact .inl rfl
  | allOnes => exact .inr rfl

section
variable {s : State} {port : BitVec 16} (w : Width)

theorem State.inPort_of_device {d : Nat} (h : s.deviceOf port = some d) :
    s.inPort w port =
      ((s.logIo (.read d port w (((Config.deviceRead s.draws d port w).setWidth w.bits).setWidth 32))).drawn.setReg w .eax
        ((Config.deviceRead s.draws d port w).setWidth w.bits)).advance := by
  rw [State.inPort, State.ioRead_of_device w h]

theorem State.inPort_of_none (h : s.deviceOf port = none) :
    s.inPort w port = (s.setReg w .eax (s.unmappedValue w)).advance := by
  rw [State.inPort, State.ioRead_of_none w h]

end

/-- Settles O58: a port read or write is one of its two cases, with a device and without one. -/
theorem portResults : Obligations.PortResults := by
  refine ⟨fun s ports d => ⟨s.deviceOf_registerPorts ports d, rfl, rfl⟩, fun s h port => by simp [State.deviceOf, h],
    fun s w b => ?_⟩
  intro inp out
  have hin : ∀ port, s.inPort w port = inp port := fun port => by
    simp only [inp]
    split
    · next d hd => exact State.inPort_of_device w hd
    · next hd => exact State.inPort_of_none w hd
  have hout : ∀ port, (s.ioWrite port w (s.reg w .eax)).advance = out port := fun port => by
    simp only [out]
    split
    · next d hd => rw [State.ioWrite_of_device _ hd]
    · next hd => rw [State.ioWrite_of_none _ hd]
  simp only [BitVec.ofNat_toNat]
  exact ⟨rfl, rfl, s.unmappedValue_w32, congrArg _ (hin _), congrArg _ (hin _), congrArg _ (hout _), congrArg _ (hout _)⟩

end Sys2Proof.Machine
end

section
/-! SUPPORT. Effective addresses as numbers, and the segments that the decoder gives to operands in memory (R222 to R226). -/

namespace Sys2Proof

/-! ## The segment of an operand (R141, R212, R226) -/

theorem MemRef.seg_of_wf {csz : Size} {p : Prefixes} {m : MemRef} (h : m.wf csz p = true) : m.seg = p.segOr m.ea.defaultSeg :=
  of_decide_eq_true (Bool.and_eq_true_iff.mp h).2

theorem decodeMem_seg {as : Size} {p : Prefixes} {m : Byte} {bs rest : List Byte} {x : MemRef}
    (h : decodeMem as p m bs = some (x, rest)) : x.seg = p.segOr x.ea.defaultSeg := by
  obtain ⟨⟨ea, r⟩, -, hx⟩ := Option.map_eq_some_iff.mp h
  cases hx
  rfl

theorem decodeRm_mem_seg {as : Size} {p : Prefixes} {m : Byte} {bs rest : List Byte} {x : MemRef}
    (h : decodeRm as p m bs = some (.mem x, rest)) : x.seg = p.segOr x.ea.defaultSeg := by
  unfold decodeRm at h
  split at h
  · cases h
  · obtain ⟨⟨y, r⟩, hy, hx⟩ := Option.map_eq_some_iff.mp h
    cases hx
    exact decodeMem_seg hy

/-- MOV Gv,Ev takes its source from the ModRM byte (R250). -/
theorem decode_mov_mem_seg {csz : Size} {p : Prefixes} {m : Byte} {bs rest : List Byte} {w : Width} {g : Reg} {x : MemRef}
    (h : decode csz p (0x8B :: m :: bs) = some (.mov w (.reg g) (.rm (.mem x)), rest)) : x.seg = p.segOr x.ea.defaultSeg := by
  have hdec : decode csz p (0x8B :: m :: bs) = (decodeRm (p.as csz) p m bs).bind fun er =>
      some (.mov (p.os csz).width (.reg (Reg.ofBits (mid3 m))) (.rm er.1), er.2) := rfl
  obtain ⟨⟨e, r⟩, he, hmov⟩ := Option.bind_eq_some_iff.mp (hdec.symm.trans h)
  cases hmov
  exact decodeRm_mem_seg he

/-- What a decoder answers, where it answers, has a property. -/
def Gives (P : Instr → Prop) (x : Option (Instr × List Byte)) : Prop := ∀ i r, x = some (i, r) → P i

section
variable {P : Instr → Prop}

@[simp] theorem gives_none : Gives P none := fun _ _ h => nomatch h

@[simp] theorem gives_some {i : Instr} {r : List Byte} : Gives P (some (i, r)) ↔ P i :=
  ⟨fun h => h i r rfl, fun h _ _ hi => by cases hi; exact h⟩

@[simp] theorem gives_bind {α : Type} {x : Option α} {f : α → Option (Instr × List Byte)} :
    Gives P (x.bind f) ↔ ∀ a, x = some a → Gives P (f a) := by
  cases x with
  | none => simp
  | some a => simp

@[simp] theorem gives_ite {c : Prop} [Decidable c] {x y : Option (Instr × List Byte)} :
    Gives P (if c then x else y) ↔ (c → Gives P x) ∧ (¬c → Gives P y) := by
  by_cases h : c <;> simp [h]

end

/-- A direct memory offset, where an instruction has one, is in a segment (R236). -/
@[simp] def Instr.MoffsIn (q : SegReg) : Instr → Prop
  | .movAccMoffs _ m | .movMoffsAcc _ m => m.seg = q
  | _ => True

section
variable (q : SegReg)

theorem aluInstr_moffsIn (k : Nat) (w : Width) (d : Rm) (x : Operand) : (aluInstr k w d x).MoffsIn q := by
  unfold aluInstr
  split <;> trivial

theorem shiftInstr_moffsIn (k : Nat) (w : Width) (d : Rm) (c : ShiftCount) : (shiftInstr k w d c).MoffsIn q := by
  unfold shiftInstr
  split <;> trivial

theorem jccInstr_moffsIn (c : Cond) (os : Size) (rel : Rel) : (jccInstr c os rel).MoffsIn q := by cases c <;> trivial

theorem setccInstr_moffsIn (c : Cond) (d : Rm) : (setccInstr c d).MoffsIn q := by cases c <;> trivial

theorem bitInstr_moffsIn (k : Nat) (os : Size) (d : Rm) (o : BitOff) : (bitInstr k os d o).MoffsIn q := by
  unfold bitInstr
  split <;> trivial

theorem ite_moffsIn (c : Prop) [Decidable c] (i j : Instr) :
    (if c then i else j).MoffsIn q ↔ (c → i.MoffsIn q) ∧ (¬c → j.MoffsIn q) := by
  by_cases h : c <;> simp [h]

theorem prefixOf_moffsIn {b : Byte} {i : Instr} (h : prefixOf b = some i) : i.MoffsIn q := by
  unfold prefixOf at h
  split at h <;> cases h <;> trivial

end

section
variable (os as : Size) (p : Prefixes) (b : Byte) (bs : List Byte)

theorem decode00_moffsIn : Gives (Instr.MoffsIn (p.segOr .ds)) (decode00 os as p b bs) := by
  simp [decode00, ↓aluInstr_moffsIn]

theorem decode40_moffsIn : Gives (Instr.MoffsIn (p.segOr .ds)) (decode40 os as p b bs) := by
  simp [decode40, ↓jccInstr_moffsIn]

theorem decode80_moffsIn : Gives (Instr.MoffsIn (p.segOr .ds)) (decode80 os as p b bs) := by
  cases os <;> simp [decode80, ↓aluInstr_moffsIn]

theorem decodeGroup3_moffsIn (w : Width) : Gives (Instr.MoffsIn (p.segOr .ds)) (decodeGroup3 as p w bs) := by
  simp only [decodeGroup3, Option.bind_eq_bind, gives_bind]
  intro m _ e _
  split <;> simp

theorem decodeGroup45_moffsIn : Gives (Instr.MoffsIn (p.segOr .ds)) (decodeGroup45 os as p b bs) := by
  simp only [decodeGroup45, Option.bind_eq_bind, gives_bind]
  intro m _
  split
  · simp
  · split <;> simp

theorem decodeC0_moffsIn : Gives (Instr.MoffsIn (p.segOr .ds)) (decodeC0 os as p b bs) := by
  simp [decodeC0, ↓shiftInstr_moffsIn, ↓ite_moffsIn, decodeGroup45_moffsIn, decodeGroup3_moffsIn]

theorem decodeGroup7_moffsIn : Gives (Instr.MoffsIn (p.segOr .ds)) (decodeGroup7 os as p b bs) := by
  simp only [decodeGroup7, Option.bind_eq_bind, gives_bind]
  intro m _
  split
  · simp
  · split <;> simp

theorem decodeFarLoad_moffsIn : Gives (Instr.MoffsIn (p.segOr .ds)) (decodeFarLoad os as p b bs) := by
  simp [decodeFarLoad, ↓ite_moffsIn]

theorem decode0F_moffsIn : Gives (Instr.MoffsIn (p.segOr .ds)) (decode0F os as p b bs) := by
  simp [decode0F, ↓jccInstr_moffsIn, ↓setccInstr_moffsIn, ↓bitInstr_moffsIn, ↓ite_moffsIn, decodeGroup7_moffsIn,
    decodeFarLoad_moffsIn]

theorem decodeOne_moffsIn : Gives (Instr.MoffsIn (p.segOr .ds)) (decodeOne os as p b bs) := by
  simp [decodeOne, decode00_moffsIn, decode40_moffsIn, decode80_moffsIn, decodeC0_moffsIn]

end

/-- Whatever the bytes, a direct memory offset that they decode to is in DS or in the segment of an override (R226, R236). -/
theorem decode_moffsIn (csz : Size) (p : Prefixes) (bs : List Byte) :
    Gives (Instr.MoffsIn (p.segOr .ds)) (decode csz p bs) := by
  unfold decode
  split
  · simp
  · split
    · next h => simpa using prefixOf_moffsIn _ h
    · split
      · split
        · simp
        · exact decode0F_moffsIn _ _ p _ _
      · exact decodeOne_moffsIn _ _ p _ _

end Sys2Proof

namespace Sys2Proof.Machine

/-! ## Effective addresses as numbers (R142, R222 to R224) -/

section
variable (s : State)

theorem State.reg16_toNat (q : Reg) : (s.reg .w16 q).toNat = (s.regs.get q).toNat % 2 ^ 16 :=
  BitVec.toNat_setWidth 16 (s.regs.get q)

theorem State.effAddr16_toNat (b : Base16) (d : Disp 16) :
    (s.effAddr (.a16 b d)).toNat = ((s.base16 b).toNat + (dispValue16 d).toNat) % 2 ^ 16 :=
  (BitVec.toNat_setWidth_of_le (by decide)).trans (BitVec.toNat_add _ _)

/-- A base and an index in 16 bits, as numbers (R222). -/
theorem State.effAddr16_sum {b : Base16} {q r : Reg} (h : s.base16 b = s.reg .w16 q + s.reg .w16 r) (d : Disp 16) :
    (s.effAddr (.a16 b d)).toNat
      = ((s.regs.get q).toNat % 2 ^ 16 + (s.regs.get r).toNat % 2 ^ 16 + (dispValue16 d).toNat) % 2 ^ 16 := by
  rw [State.effAddr16_toNat, h, BitVec.toNat_add, State.reg16_toNat, State.reg16_toNat, Nat.mod_add_mod]

/-- One register in 16 bits, as a number (R222). -/
theorem State.effAddr16_reg {b : Base16} {q : Reg} (h : s.base16 b = s.reg .w16 q) (d : Disp 16) :
    (s.effAddr (.a16 b d)).toNat = ((s.regs.get q).toNat % 2 ^ 16 + (dispValue16 d).toNat) % 2 ^ 16 := by
  rw [State.effAddr16_toNat, h, State.reg16_toNat]

theorem State.effAddr16_abs (d : Disp 16) : (s.effAddr (.a16 .abs d)).toNat = (dispValue16 d).toNat := by
  rw [State.effAddr16_toNat]
  exact (congrArg (· % 2 ^ 16) (Nat.zero_add _)).trans (Nat.mod_eq_of_lt (dispValue16 d).isLt)

theorem scaled_toNat (v : BitVec 32) (k : Scale) : (scaled v k).toNat = v.toNat * 2 ^ k.toBits.toNat % 2 ^ 32 := by
  cases k with
  | x1 => simpa [scaled, Scale.toBits] using (Nat.mod_eq_of_lt v.isLt).symm
  | _ => simp [scaled, Scale.toBits, Nat.shiftLeft_eq]

theorem State.effAddr32_toNat (b : Option Reg) (i : Option (Reg × Scale)) (d : Disp 32) :
    (s.effAddr (.a32 b i d)).toNat = ((s.base32 b).toNat + (s.index32 i).toNat + (dispValue32 d).toNat) % 2 ^ 32 := by
  rw [State.effAddr, BitVec.toNat_add, BitVec.toNat_add, Nat.mod_add_mod]

theorem State.base32_none : (s.base32 none).toNat = 0 := rfl

theorem State.base32_some (q : Reg) : (s.base32 (some q)).toNat = (s.regs.get q).toNat := rfl

theorem State.index32_none : (s.index32 none).toNat = 0 := rfl

theorem State.index32_some (q : Reg) (k : Scale) :
    (s.index32 (some (q, k))).toNat = (s.regs.get q).toNat * 2 ^ k.toBits.toNat % 2 ^ 32 := scaled_toNat _ k

end

theorem dispValue_byte (b : Byte) : (dispValue16 (.byte b)).toInt = b.toInt ∧ (dispValue32 (.byte b)).toInt = b.toInt :=
  ⟨BitVec.toInt_signExtend_of_le (by decide), BitVec.toInt_signExtend_of_le (by decide)⟩

/-- Settles O27: addresses are sums of numbers, and every segment that decoding gives is `Prefixes.segOr` of its default. -/
theorem effectiveAddresses : Obligations.EffectiveAddresses := by
  refine ⟨fun s => ⟨fun d => ?_, fun b i k d => ?_, dispValue_byte, ⟨rfl, rfl, fun _ => rfl, fun _ => rfl⟩, fun m => rfl⟩,
    fun p => ⟨rfl, rfl, rfl, rfl, rfl, rfl, ?_⟩, fun csz p => ?_⟩
  · exact ⟨s.effAddr16_sum rfl d, s.effAddr16_sum rfl d, s.effAddr16_sum rfl d, s.effAddr16_sum rfl d, s.effAddr16_reg rfl d,
      s.effAddr16_reg rfl d, s.effAddr16_reg rfl d, s.effAddr16_reg rfl d, s.effAddr16_abs d⟩
  · have hn := (dispValue32 d).isLt
    simp only [State.effAddr32_toNat, State.base32_none, State.base32_some, State.index32_none, State.index32_some]
    omega
  · simp [Prefixes.after]
  · intro seg dflt
    have hseg : ∀ q, seg q = p.segOr q := fun q => by
      simp only [seg, Prefixes.segOr]
      cases p.seg <;> rfl
    have hdflt : ∀ ea, dflt ea = ea.defaultSeg := fun ea => by
      cases ea with
      | a16 b d => cases b <;> rfl
      | a32 b i d =>
        cases b with
        | none => rfl
        | some q => cases q <;> rfl
    refine ⟨fun m hm => ?_, fun m bs rest w g x h => ?_, fun w m bs rest op h => ?_, fun rest => ?_⟩
    · rw [hseg, hdflt]
      exact MemRef.seg_of_wf hm
    · rw [hseg, hdflt]
      exact decode_mov_mem_seg h
    · rw [hseg]
      rcases h with h | h <;> exact decode_moffsIn csz p (op :: bs) _ _ h
    · simp only [hseg]
      exact ⟨rfl, rfl, rfl, rfl, rfl, rfl, rfl, rfl, rfl⟩

end Sys2Proof.Machine
end

section
/-! SUPPORT. The memory frame: which bytes each instruction stores to. `State.Stores` says that no byte outside some stored bytes
has changed, `State.Pushes` that the stack has gone down by some slots, and `State.StoresElement` that a string instruction has
stored one element. There is one rule for each operation that the instructions share, and then one case for each instruction. -/

namespace Sys2Proof.Machine

/-! ## Updates that are not of memory -/

section
variable (s : State)

@[simp] theorem State.ioRead_mem (port : BitVec 16) (w : Width) : (s.ioRead port w).2.mem = s.mem := by
  cases h : s.deviceOf port with
  | none => rw [State.ioRead_of_none w h]
  | some d => rw [State.ioRead_of_device w h]; rfl

@[simp] theorem State.ioWrite_mem (port : BitVec 16) (w : Width) (v : BitVec w.bits) : (s.ioWrite port w v).mem = s.mem := by
  cases h : s.deviceOf port with
  | none => rw [State.ioWrite_of_none v h]
  | some d => rw [State.ioWrite_of_device v h]; rfl

@[simp] theorem State.stepIndex_mem (as : Size) (w : Width) (r : Reg) : (s.stepIndex as w r).mem = s.mem := rfl

@[simp] theorem State.extendAcc_mem (os : Size) : (s.extendAcc os).mem = s.mem := by cases os <;> rfl

@[simp] theorem State.branch_mem (b : Bool) (os : Size) (rel : BitVec 32) : (s.branch b os rel).mem = s.mem := by cases b <;> rfl

end

/-! ## Stored bytes -/

/-- From `s` to `t`, no byte of memory outside the bytes of a list has changed. -/
def State.Stores (l : List (BitVec 32 × Nat)) (s t : State) : Prop := ∀ a, Outside a l → t.byteAt a = s.byteAt a

theorem Outside.subset {a : BitVec 32} {l m : List (BitVec 32 × Nat)} (h : Outside a m) (hl : l ⊆ m) : Outside a l :=
  fun p hp => h p (hl hp)

namespace State.Stores
variable {l : List (BitVec 32 × Nat)} {s t : State}

theorem refl (l : List (BitVec 32 × Nat)) (s : State) : s.Stores l s := fun _ _ => rfl

theorem trans {u : State} (h : s.Stores l t) (h' : t.Stores l u) : s.Stores l u := fun a ha => (h' a ha).trans (h a ha)

/-- An update that is not of memory. -/
theorem of_mem_eq {u : State} (h : s.Stores l t) (hu : u.mem = t.mem) : s.Stores l u := fun a ha =>
  (congrArg (fun m : Memory => m.get a.toNat) hu).trans (h a ha)

theorem subset {m : List (BitVec 32 × Nat)} (h : s.Stores l t) (hl : l ⊆ m) : s.Stores m t := fun a ha => h a (ha.subset hl)

section
variable (h : s.Stores l t)
include h

theorem store {lin : BitVec 32} {w : Width} (v : BitVec w.bits) (hl : (lin, w.bytes) ∈ l) : s.Stores l (t.store lin w v) :=
  fun a ha => by
    obtain ⟨-, -, hout⟩ := t.store_bytes lin w v
    exact (hout a (ha.subset (List.cons_subset.mpr ⟨hl, List.nil_subset _⟩))).trans (h a ha)

theorem setSp (v : BitVec 32) : s.Stores l (t.setSp v) := h.of_mem_eq (t.setSp_mem v)

theorem memWrite (w : Width) {lin : BitVec 32} (v : BitVec w.bits) (hl : (lin, w.bytes) ∈ l) :
    Yields (s.Stores l) (t.memWrite w lin v) := fun _ hu => by
  obtain ⟨-, rfl⟩ := State.memWrite_iff.mp hu
  exact h.store v hl

theorem writeAt (w : Width) (p : Place) (v : BitVec w.bits) (hl : p.bytes w ⊆ l) : Yields (s.Stores l) (t.writeAt w p v) := by
  cases p with
  | reg r => exact .ok h
  | mem lin => exact h.memWrite w v (hl List.mem_cons_self)

theorem setSelector (r : SegReg) (v : BitVec 16) : Yields (s.Stores l) (t.setSelector r v) := fun _ hu => by
  obtain ⟨-, rfl⟩ := State.setSelector_iff.mp hu
  exact h

theorem farTransfer (sel : BitVec 16) (off : BitVec 32) : Yields (s.Stores l) (t.farTransfer sel off) :=
  .bind_state (h.setSelector .cs sel) fun _ hu => .ok hu

end
end State.Stores

section
variable {l : List (BitVec 32 × Nat)} {P : State → Prop} {s t : State} {n : Size}
  {f : BitVec n.width.bits × State → Except FaultKind State}

theorem Yields.bind_popped (hf : Yields P (f (t.popValue n, t.popped n))) : Yields P (t.pop n >>= f) := fun r hr => by
  obtain ⟨x, hpop, hx⟩ := bind_ok.mp hr
  obtain ⟨-, hv, hu⟩ := State.pop_iff.mp hpop
  exact hf r (hu ▸ hv ▸ hx)

/-- A pop stores nothing (R370). -/
theorem Yields.bind_pop_stores (h : s.Stores l t) (hf : ∀ v u, s.Stores l u → Yields P (f (v, u))) :
    Yields P (t.pop n >>= f) := .bind_popped (hf _ _ (h.setSp _))

end

/-! ## Writes of an operand -/

section
variable {s : State} {w : Width} {os : Size} {dst : Rm}

theorem State.writeRm_stores (v : BitVec w.bits) : Yields (s.Stores ((s.place dst).bytes w)) (s.writeRm w dst v) :=
  (State.Stores.refl _ s).writeAt w _ v fun _ h => h

theorem State.binary_stores {src : Operand} {f : BitVec w.bits → BitVec w.bits → BitVec w.bits × Flags} :
    Yields (s.Stores ((s.place dst).bytes w)) (s.binary w dst src f) :=
  .bind_value fun _ => .bind_value fun _ => .bind_state (State.writeRm_stores _) fun _ ht => .ok ht

theorem State.unary_stores {f : BitVec w.bits → BitVec w.bits × Flags} :
    Yields (s.Stores ((s.place dst).bytes w)) (s.unary w dst f) :=
  .bind_value fun _ => .bind_state (State.writeRm_stores _) fun _ ht => .ok ht

theorem State.shiftRm_stores {count : ShiftCount} {f : Nat → BitVec w.bits → BitVec w.bits × Flags} :
    Yields (s.Stores ((s.place dst).bytes w)) (s.shiftRm w dst count f) :=
  .bind_value fun _ => .ite (.ok (.refl _ s)) <| .bind_state (State.writeRm_stores _) fun _ ht => .ok ht

theorem State.bitModify_stores {off : BitOff} {f : BitVec os.width.bits → BitVec os.width.bits → BitVec os.width.bits} :
    Yields (s.Stores ((s.bitPlace os dst off).1.bytes os.width)) (s.bitModify os dst off f) :=
  .bind_value fun _ => .bind_state ((State.Stores.refl _ s).writeAt os.width _ _ fun _ h => h) fun _ ht => .ok ht

theorem State.setCond_stores (c : Cond) : Yields (s.Stores ((s.place dst).bytes .w8)) (s.setCond c dst) :=
  .bind_state (State.writeRm_stores _) fun _ ht => .ok ht

/-- A system value is stored as a word, whatever the operand size (R306). -/
theorem State.storeWord_stores (v : BitVec 16) : Yields (s.Stores ((s.place dst).bytes .w16)) (s.storeWord os dst v) := by
  cases dst with
  | reg r => exact .ok (.refl _ s)
  | mem m => exact (State.Stores.refl _ s).memWrite .w16 v List.mem_cons_self

theorem State.writeTable_stores (m : MemRef) (v : TableReg) :
    Yields (s.Stores [(s.memAddr m, 2), (s.memAddrPlus m 2, 4)]) (s.writeTable os m v) :=
  .bind_state ((State.Stores.refl [(s.memAddr m, 2), (s.memAddrPlus m 2, 4)] s).memWrite .w16 _ List.mem_cons_self) fun _ ht =>
    ht.memWrite .w32 _ (List.mem_cons_of_mem _ List.mem_cons_self)

theorem State.loadFar_stores (r : SegReg) (d : Reg) (m : MemRef) : Yields (s.Stores []) (s.loadFar os r d m) :=
  .bind_value fun _ => .bind_state ((State.Stores.refl [] s).setSelector r _) fun _ ht => .ok ht

theorem State.popSeg_stores (r : SegReg) : Yields (s.Stores []) (s.popSeg os r) :=
  .bind_pop_stores (.refl [] s) fun _ _ ht => .bind_state (ht.setSelector r _) fun _ hu => .ok hu

theorem State.popAll_stores (l : List Reg) {t : State} (h : s.Stores [] t) : Yields (s.Stores []) (t.popAll os l) := by
  induction l generalizing t with
  | nil => exact .ok h
  | cons r rs ih => exact .bind_pop_stores h fun v u hu => .ite (ih hu) (ih (t := u.setReg os.width r v) hu)

end

/-! ## Pushes (R370) -/

/-- From `s` to `t` the stack has gone down by k slots, and no other byte of memory has changed. -/
structure State.Pushes (n : Size) (k : Nat) (s t : State) : Prop where
  stores : s.Stores (s.slots n k) t
  slot : ∀ j, t.slot n j = s.slot n (k + j)

theorem State.slots_subset (s : State) (n : Size) {j k : Nat} (h : j ≤ k) : s.slots n j ⊆ s.slots n k :=
  List.map_subset _ (List.range_subset.mpr h)

theorem State.slot_mem_slots (s : State) (n : Size) {j k : Nat} (h : j < k) : (s.slot n (j + 1), n.width.bytes) ∈ s.slots n k :=
  List.mem_map.mpr ⟨j, List.mem_range.mpr h, rfl⟩

namespace State.Pushes
variable {n : Size} {k : Nat} {s t : State}

theorem refl (n : Size) (s : State) : s.Pushes n 0 s := ⟨.refl _ s, fun j => congrArg (s.slot n) (Nat.zero_add j).symm⟩

theorem push (h : s.Pushes n k t) (v : BitVec n.width.bits) : Yields (s.Pushes n (k + 1)) (t.push n v) := fun _ hu => by
  obtain ⟨-, rfl⟩ := State.push_iff.mp hu
  refine ⟨?_, fun j => ?_⟩
  · refine ((h.stores.subset (s.slots_subset n (Nat.le_succ k))).setSp _).store v ?_
    rw [h.slot]
    exact s.slot_mem_slots n (Nat.lt_succ_self k)
  · rw [State.slot_pushed, h.slot, Nat.add_right_comm, Nat.add_assoc]

theorem pushAll (h : s.Pushes n k t) (l : List (BitVec n.width.bits)) : Yields (s.Pushes n (k + l.length)) (t.pushAll n l) := by
  induction l generalizing t k with
  | nil => exact .ok h
  | cons v vs ih =>
    rw [List.length_cons, Nat.add_comm vs.length, ← Nat.add_assoc]
    exact .bind_state (h.push v) fun _ hu => ih hu

theorem enterLoop (h : s.Pushes n k t) (fp : BitVec 32) (m : Nat) : Yields (s.Pushes n (k + m)) (t.enterLoop n fp m) := by
  induction m generalizing t k fp with
  | zero => exact .ok h
  | succ m ih =>
    have hk : k + (m + 1) = k + 1 + m := by omega
    rw [hk]
    exact .bind_value fun v => .bind_state (h.push v) fun _ hu => ih hu _

theorem enterLevels (h : s.Pushes n k t) (fp frame : BitVec 32) (level : Nat) :
    Yields (s.Pushes n (k + level)) (t.enterLevels n fp frame level) := by
  cases level with
  | zero => exact .ok h
  | succ m => exact .bind_state (h.enterLoop fp m) fun _ hu => hu.push _

end State.Pushes

/-! ## Elements of the storing string instructions (R582) -/

theorem truncTo_add (sz : Size) (v d : BitVec 32) : truncTo sz (truncTo sz v + d) = truncTo sz (v + d) := by
  cases sz with
  | s32 => rfl
  | s16 => simp [truncTo, BitVec.toNat_eq]

theorem truncTo_eq (sz : Size) (v : BitVec 32) : (v.setWidth sz.width.bits).setWidth 32 = truncTo sz v := by
  cases sz with
  | s16 => rfl
  | s32 => simp [truncTo]

theorem truncTo_index (s : State) (as : Size) (r : Reg) : truncTo as (s.index as r) = s.index as r := by
  cases as with
  | s16 => simp [truncTo, State.index]
  | s32 => rfl

section
variable (s : State) (as : Size) (w : Width)

theorem State.index_setReg_of_ne {q r : Reg} (v : BitVec as.width.bits) (h : q ≠ r) :
    (s.setReg as.width r v).index as q = s.index as q := by
  have hget := Regs.get_write_of_ne s.regs as.width r q v ((Reg.home_size as r).symm ▸ h)
  cases as <;> simp only [State.index, State.reg, Regs.read, State.setReg_regs, hget]

/-- Where the next elements are depends on ES, the mode, DF and the index register only. -/
theorem State.dstAt_congr {t : State} (hsegs : t.segs = s.segs) (hmode : t.mode = s.mode) (hflags : t.flags = s.flags)
    (hindex : t.index as .edi = s.index as .edi) (j : Nat) : t.dstAt as w j = s.dstAt as w j := by
  simp only [State.dstAt, State.linear, hsegs, hmode, hflags, hindex]

theorem State.dstAt_setReg_of_ne {r : Reg} (v : BitVec as.width.bits) (h : .edi ≠ r) (j : Nat) :
    (s.setReg as.width r v).dstAt as w j = s.dstAt as w j :=
  State.dstAt_congr s as w (t := s.setReg as.width r v) rfl rfl rfl (s.index_setReg_of_ne as v h) j

theorem State.dstAt_decCount (j : Nat) : (s.decCount as).dstAt as w j = s.dstAt as w j :=
  s.dstAt_setReg_of_ne as w (r := .ecx) _ (by decide) j

theorem State.dstAt_stepSource (j : Nat) : (s.stepIndex as w .esi).dstAt as w j = s.dstAt as w j :=
  s.dstAt_setReg_of_ne as w (r := .esi) _ (by decide) j

theorem State.dstAt_store (lin : BitVec 32) (x : Width) (v : BitVec x.bits) (j : Nat) :
    (s.store lin x v).dstAt as w j = s.dstAt as w j :=
  s.dstAt_congr as w (s.store_segs lin x v) (s.store_mode lin x v) (s.store_flags lin x v) (by simp [State.index, State.reg]) j

theorem State.dstAt_ioRead (port : BitVec 16) (x : Width) (j : Nat) : (s.ioRead port x).2.dstAt as w j = s.dstAt as w j := by
  cases hd : s.deviceOf port with
  | none => rw [State.ioRead_of_none x hd]
  | some d => rw [State.ioRead_of_device x hd]; rfl

theorem State.dstAddr_eq : s.dstAddr as = s.dstAt as w 0 := by
  rw [State.dstAddr, State.dstAt, Nat.zero_mul]
  simp [truncTo_index]

/-- After a step of the index register the next element is the one that was after it. -/
theorem State.dstAt_stepIndex (j : Nat) : (s.stepIndex as w .edi).dstAt as w j = s.dstAt as w (j + 1) := by
  have hindex : (s.stepIndex as w .edi).index as .edi = truncTo as
      (if s.flags.df then s.index as .edi - BitVec.ofNat 32 w.bytes else s.index as .edi + BitVec.ofNat 32 w.bytes) := by
    rw [← truncTo_eq]
    exact congrArg (BitVec.setWidth 32) (s.reg_setReg_self as.width .edi _)
  have hj : BitVec.ofNat 32 ((j + 1) * w.bytes) = BitVec.ofNat 32 w.bytes + BitVec.ofNat 32 (j * w.bytes) := by
    rw [← BitVec.ofNat_add, Nat.succ_mul, Nat.add_comm]
  have hdf : (s.stepIndex as w .edi).flags.df = s.flags.df := rfl
  have hlin : ∀ off, (s.stepIndex as w .edi).linear .es off = s.linear .es off := fun _ => rfl
  simp only [State.dstAt, hlin, hindex, hj, hdf]
  cases s.flags.df with
  | true => simp [truncTo_sub, sub_sub]
  | false => simp [truncTo_add, BitVec.add_assoc]

end

/-- From `s` to `t` a string instruction has stored to its next destination element, and gone on to the one after it. -/
structure State.StoresElement (as : Size) (w : Width) (s t : State) : Prop where
  stores : s.Stores [(s.dstAt as w 0, w.bytes)] t
  dst : ∀ j, t.dstAt as w j = s.dstAt as w (j + 1)

section
variable (w : Width) (as : Size) (s : State)

/-- A store to the element, from a state with the memory and the elements of `s`, and the step to the one after it. -/
theorem State.StoresElement.of_store {w : Width} {as : Size} {s t u : State} {v : BitVec w.bits} (hm : t.mem = s.mem)
    (hd : ∀ j, t.dstAt as w j = s.dstAt as w j) (hu : u.mem = (t.store (s.dstAddr as) w v).mem)
    (hud : ∀ j, u.dstAt as w j = t.dstAt as w j) : s.StoresElement as w (u.stepIndex as w .edi) := by
  refine ⟨State.Stores.of_mem_eq (t := t.store (s.dstAddr as) w v) ?_ hu, fun j => ?_⟩
  · rw [State.dstAddr_eq s as w]
    exact ((State.Stores.refl _ s).of_mem_eq hm).store v List.mem_cons_self
  · rw [State.dstAt_stepIndex, hud, hd]

theorem stosBody_stores : Yields (s.StoresElement as w) (stosBody w as s) := fun _ hu => by
  obtain ⟨t, ht, hu⟩ := bind_ok.mp hu
  obtain ⟨-, rfl⟩ := State.memWrite_iff.mp ht
  cases hu
  exact .of_store rfl (fun _ => rfl) rfl (s.dstAt_store as w _ w _)

theorem insBody_stores : Yields (s.StoresElement as w) (insBody w as s) := by
  unfold insBody
  split
  · exact .error _
  · intro u hu
    obtain ⟨t, ht, hu⟩ := bind_ok.mp hu
    obtain ⟨-, rfl⟩ := State.memWrite_iff.mp ht
    cases hu
    exact .of_store (s.ioRead_mem _ w) (s.dstAt_ioRead as w _ w) rfl (State.dstAt_store _ as w _ w _)

theorem movsBody_stores (seg : SegReg) : Yields (s.StoresElement as w) (movsBody w as seg s) := fun _ hu => by
  obtain ⟨v, -, hu⟩ := bind_ok.mp hu
  obtain ⟨t, ht, hu⟩ := bind_ok.mp hu
  obtain ⟨-, rfl⟩ := State.memWrite_iff.mp ht
  cases hu
  exact .of_store rfl (fun _ => rfl) (State.stepIndex_mem _ as w _) fun j =>
    (State.dstAt_stepSource _ as w j).trans (s.dstAt_store as w _ w v j)

end

/-! ## Repetition (R580) -/

section
variable {as : Size} {w : Width} {s : State} {l : List (BitVec 32 × Nat)} {body : State → Except FaultKind State}

/-- The bytes of the next n destination elements. -/
def State.nextElements (s : State) (as : Size) (w : Width) (n : Nat) : List (BitVec 32 × Nat) :=
  (List.range n).map fun j => (s.dstAt as w j, w.bytes)

/-- The next n + 1 elements are the first, and the next n of a state that has stored it. -/
theorem State.StoresElement.nextElements {t : State} (h : s.StoresElement as w t) (n : Nat) :
    s.nextElements as w (n + 1) = (s.dstAt as w 0, w.bytes) :: t.nextElements as w n := by
  simp [State.nextElements, List.range_succ_eq_map, h.dst]

theorem State.StoresElement.stores_rest {t u : State} {n : Nat} (h : s.StoresElement as w t)
    (h' : t.Stores (t.nextElements as w n) u) : s.Stores (s.nextElements as w (n + 1)) u := by
  rw [h.nextElements]
  have hfirst := h.stores.subset (List.cons_subset_cons (s.dstAt as w 0, w.bytes) (List.nil_subset (t.nextElements as w n)))
  exact hfirst.trans (h'.subset (List.subset_cons_self _ _))

theorem State.Stores.repeatLoop {t : State} (hb : ∀ u, s.Stores l u → Yields (s.Stores l) (body u)) (stop : State → Bool)
    (n : Nat) (ht : s.Stores l t) : Leads (s.Stores l) (repeatLoop body as stop n t) := by
  induction n generalizing t with
  | zero => exact .next ht
  | succ n ih =>
    unfold Machine.repeatLoop
    split
    · exact .fault _
    · next u hu =>
      have hdec : s.Stores l (u.decCount as) := hb t ht u hu
      split
      · exact .next hdec
      · exact ih hdec

theorem State.StoresElement.decCount {t : State} (h : s.StoresElement as w t) : s.StoresElement as w (t.decCount as) :=
  ⟨h.stores, fun j => (t.dstAt_decCount as w j).trans (h.dst j)⟩

theorem repeatLoop_storesElements (hb : ∀ u, Yields (u.StoresElement as w) (body u)) (stop : State → Bool) (n : Nat) :
    Leads (s.Stores (s.nextElements as w n)) (repeatLoop body as stop n s) := by
  induction n generalizing s with
  | zero => exact .next (.refl _ s)
  | succ n ih =>
    unfold repeatLoop
    split
    · exact .fault _
    · next t ht =>
      have hdec := (hb s t ht).decCount
      split
      · exact .next (hdec.stores_rest (.refl _ _))
      · exact fun u hu => hdec.stores_rest (ih u hu)

end

/-! ## The string instructions -/

section
variable {as : Size} {w : Width} {s : State} {body : State → Except FaultKind State}

theorem runString_storesElements (hb : ∀ u, Yields (u.StoresElement as w) (body u)) (rep : Bool) :
    Leads (s.Stores (s.elements as w rep)) (runString rep as body s) := by
  cases rep with
  | true => exact repeatLoop_storesElements hb _ _
  | false => exact .finish (.bind_state (hb s) fun _ ht => .ok ht.stores)

section
variable (hb : ∀ u, Yields (u.Stores []) (body u))
include hb

theorem runOnce_storesNothing : Leads (s.Stores []) (runOnce body s) := .finish (.bind_state (hb s) fun _ ht => .ok ht)

theorem runRepeat_storesNothing (stop : State → Bool) : Leads (s.Stores []) (runRepeat body as stop s) :=
  State.Stores.repeatLoop (fun u hu t ht => hu.trans (hb u t ht)) _ _ (.refl [] s)

theorem runString_storesNothing (rep : Bool) : Leads (s.Stores []) (runString rep as body s) := by
  cases rep with
  | true => exact runRepeat_storesNothing hb _
  | false => exact runOnce_storesNothing hb

theorem runCompare_storesNothing (rep : CmpRep) : Leads (s.Stores []) (runCompare rep as body s) := by
  cases rep with
  | once => exact runOnce_storesNothing hb
  | repe | repne => exact runRepeat_storesNothing hb _

end
end

section
variable (w : Width) (as : Size) (seg : SegReg) (s : State)

theorem lodsBody_stores : Yields (s.Stores []) (lodsBody w as seg s) := .bind_value fun _ => .ok (.refl [] s)

theorem scasBody_stores : Yields (s.Stores []) (scasBody w as s) := .bind_value fun _ => .ok (.refl [] s)

theorem cmpsBody_stores : Yields (s.Stores []) (cmpsBody w as seg s) :=
  .bind_value fun _ => .bind_value fun _ => .ok (.refl [] s)

theorem outsBody_stores : Yields (s.Stores []) (outsBody w as seg s) :=
  .bind_value fun v => .ok ((State.Stores.refl [] s).of_mem_eq (s.ioWrite_mem _ w v))

end

/-! ## Stack instructions and control transfers -/

section
variable {l : List (BitVec 32 × Nat)} {s : State}

/-- The mode is not memory. -/
theorem Yields.of_sampleMode {x : Except FaultKind State} (h : Yields (s.sampleMode.Stores l) x) : Yields (s.Stores l) x :=
  fun t ht a ha => h t ht a ha

variable (s)

theorem State.push_stores (n : Size) (v : BitVec n.width.bits) : Yields (s.Stores (s.slots n 1)) (s.push n v) := fun t ht =>
  ((State.Pushes.refl n s).push v t ht).stores

theorem State.pushSeg_stores (os : Size) (r : SegReg) : Yields (s.Stores (s.slots os 1)) (s.pushSeg os r) :=
  .bind_state (s.push_stores os _) fun _ ht => .ok ht

theorem State.callNear_stores (os : Size) (target : BitVec 32) : Yields (s.Stores (s.slots os 1)) (s.callNear os target) :=
  .bind_state (s.push_stores os _) fun _ ht => .ok ht

/-- A far call loads CS before its pushes, and their slots are in SS (R532). -/
theorem State.callFar_stores (os : Size) (sel : BitVec 16) (off : BitVec 32) :
    Yields (s.Stores (s.slots os 2)) (s.callFar os sel off) := fun t ht => by
  obtain ⟨u, hu, hpushes⟩ := bind_ok.mp ht
  obtain ⟨x, hx, hlast⟩ := bind_ok.mp hpushes
  obtain ⟨-, rfl⟩ := State.farTransfer_iff.mp hu
  have h : s.Pushes os 0 (s.transferred sel off) := ⟨.refl _ s, (State.Pushes.refl os s).slot⟩
  exact ((h.push _ x hx).push _ t hlast).stores

theorem State.returnNear_stores (os : Size) (release : BitVec 16) : Yields (s.Stores []) (s.returnNear os release) :=
  .bind_pop_stores (.refl [] s) fun _ _ hu => .ok (hu.setSp _)

theorem State.returnFar_stores (os : Size) (release : BitVec 16) : Yields (s.Stores []) (s.returnFar os release) :=
  .bind_pop_stores (.refl [] s) fun _ _ hu => .bind_pop_stores hu fun _ _ hu => (hu.setSp _).farTransfer _ _

/-- A delivery stores its three pushes, in the sampled mode (R722). -/
theorem State.deliver_stores (v : BitVec 8) (ret : BitVec 32) :
    Yields (s.sampleMode.Stores (s.sampleMode.slots .s16 3)) (s.deliver v ret) :=
  .bind_state ((State.Pushes.refl .s16 s.sampleMode).push _) fun _ hu =>
  .bind_state (hu.push _) fun _ hu =>
  .bind_state (hu.push _) fun t hu =>
  .bind_value fun _ => .bind_value fun _ =>
  .bind_state ((hu.stores.of_mem_eq (t.setFlags_mem _)).setSelector _ _) fun _ hu => .ok hu

theorem State.softInterrupt_stores (v : BitVec 8) : Yields (s.Stores (s.sampleMode.slots .s16 3)) (s.softInterrupt v) :=
  .bind_state (.of_sampleMode (.of_sampleMode (s.sampleMode.deliver_stores v _))) fun _ hu => .ok hu

theorem State.interruptReturn_stores (os : Size) : Yields (s.Stores []) (s.interruptReturn os) := by
  cases os with
  | s16 | s32 =>
    exact .of_sampleMode <| .bind_pop_stores (.refl [] s.sampleMode) fun _ _ hu => .bind_pop_stores hu fun _ _ hu =>
      .bind_pop_stores hu fun _ _ hu => .bind_state (hu.farTransfer _ _) fun _ hu => .ok hu

end

/-! ## Every instruction -/

/-- Every instruction stores to no byte but those that `Instr.stored` computes from the state it starts in. -/
theorem exec_stores (i : Instr) (s : State) : Leads (s.Stores (i.stored s)) (exec i s) := by
  have hr := State.Stores.refl [] s
  cases i with
  -- the bytes of R210
  | prefixEs | prefixCs | prefixSs | prefixDs | prefixFs | prefixGs | prefixOpSize | prefixAddrSize | prefixLock | prefixRepne
  | prefixRep => exact .next hr
  -- arithmetic and logic, two operands
  | add w d x | adc w d x | sub w d x | sbb w d x | and w d x | or w d x | xor w d x =>
    exact .finish (.bind_state State.binary_stores fun _ ht => .ok ht)
  | cmp w d x | test w d x =>
    exact .finish (.bind_state (.bind_value fun _ => .bind_value fun _ => .ok hr) fun _ ht => .ok ht)
  -- one operand
  | inc w d | dec w d | neg w d | not w d => exact .finish (.bind_state State.unary_stores fun _ ht => .ok ht)
  -- multiply and divide
  | mul w x | imul w x | imulReg os d x | imulImm os d x v => exact .finish_value fun _ => hr
  | div w x | idiv w x => exact .finish <| .bind_value fun _ => .ite (.error _) <| .ite (.error _) <| .ok hr
  -- decimal adjust
  | daa | das | aaa | aas | aad base => exact .next hr
  | aam base => exact .finish <| .ite (.error _) <| .ok hr
  -- shifts and rotates
  | rol w d c | ror w d c | rcl w d c | rcr w d c | shl w d c | shr w d c | sar w d c | shld os d g c | shrd os d g c =>
    exact .finish (.bind_state State.shiftRm_stores fun _ ht => .ok ht)
  -- bit test and scan
  | bts os d o | btr os d o | btc os d o => exact .finish (.bind_state State.bitModify_stores fun _ ht => .ok ht)
  | bt os d o | bsf os d x | bsr os d x => exact .finish_value fun _ => hr
  -- moves
  | mov w d x => exact .finish <| .bind_value fun v => .bind_state (State.writeRm_stores v) fun _ ht => .ok ht
  | xchg w x g => exact .finish <| .bind_value fun _ => .bind_state (State.writeRm_stores _) fun _ ht => .ok ht
  | movMoffsAcc w m =>
    exact .finish (.bind_state ((State.Stores.refl _ s).memWrite w _ List.mem_cons_self) fun _ ht => .ok ht)
  | movFromSeg os d r => exact .finish (.bind_state (State.storeWord_stores _) fun _ ht => .ok ht)
  | movToSeg r x => exact .finish <| .bind_value fun v => .bind_state (hr.setSelector r v) fun _ ht => .ok ht
  | movAccMoffs w m | movzxByte os d x | movzxWord os d x | movsxByte os d x | movsxWord os d x =>
    exact .finish_value fun _ => hr
  | movFromCr d c | movToCr c g | lea os d m => exact .next hr
  -- far-pointer loads
  | lds os d m | les os d m | lss os d m | lfs os d m | lgs os d m =>
    exact .finish (.bind_state (State.loadFar_stores _ d m) fun _ ht => .ok ht)
  -- conversions and accumulator moves
  | cbw os => exact .next (hr.of_mem_eq (s.extendAcc_mem os))
  | cwd os | lahf | sahf => exact .next hr
  | xlat as r => exact .finish_value fun _ => hr
  -- SETcc
  | seto d | setno d | setb d | setae d | sete d | setne d | setbe d | seta d | sets d | setns d | setp d | setnp d | setl d
  | setge d | setle d | setg d => exact .finish (State.setCond_stores _)
  -- stack
  | push os x => exact .finish <| .bind_value fun v => .bind_state (s.push_stores os v) fun _ ht => .ok ht
  | pushImm os v | pushf os => exact .finish (.bind_state (s.push_stores os _) fun _ ht => .ok ht)
  | pushEs os | pushCs os | pushSs os | pushDs os | pushFs os | pushGs os => exact .finish (s.pushSeg_stores os _)
  | pop os g => exact .finish <| .bind_pop_stores hr fun _ _ ht => .ok ht
  | popRm os d =>
    exact .finish <| .bind_popped <| .bind_state
      (((State.Stores.refl _ s).setSp _).writeAt os.width _ _ fun _ h => h) fun _ ht => .ok ht
  | popEs os | popSs os | popDs os | popFs os | popGs os => exact .finish (s.popSeg_stores _)
  | pusha os => exact .finish (.bind_state ((State.Pushes.refl os s).pushAll _) fun _ ht => .ok ht.stores)
  | popa os => exact .finish (.bind_state (State.popAll_stores _ hr) fun _ ht => .ok ht)
  | popf | popfd => exact .finish <| .bind_pop_stores hr fun _ _ ht => .ok ht
  | enter os alloc level =>
    exact .finish <| .bind_state ((State.Pushes.refl os s).push _) fun _ ht =>
      .bind_state (ht.enterLevels _ _ _) fun u hu =>
        .ok (State.Stores.setSp (t := u.setReg u.sw.width .ebp _) (hu.stores.of_mem_eq rfl) _)
  | leave os => exact .finish <| .bind_pop_stores (hr.setSp _) fun _ _ ht => .ok ht
  -- conditional branches and loops
  | jo os r | jno os r | jb os r | jae os r | je os r | jne os r | jbe os r | ja os r | js os r | jns os r | jp os r | jnp os r
  | jl os r | jge os r | jle os r | jg os r | jmpRel os r => exact .next (hr.of_mem_eq (s.branch_mem _ os _))
  | jcxz os as r => exact .next (hr.of_mem_eq (s.branch_mem _ os _))
  | loop os as r | loope os as r | loopne os as r => exact .next (hr.of_mem_eq ((s.decCount as).branch_mem _ os _))
  -- jumps, calls, returns
  | jmpInd os x => exact .finish_value fun _ => hr
  | jmpFar os off sel => exact .finish (.of_sampleMode ((State.Stores.refl [] s.sampleMode).farTransfer sel off))
  | jmpFarInd os m =>
    exact .finish <| .bind_value fun _ => .of_sampleMode ((State.Stores.refl [] s.sampleMode).farTransfer _ _)
  | callRel os r => exact .finish (.of_sampleMode (s.sampleMode.callNear_stores os _))
  | callInd os x => exact .finish <| .bind_value fun _ => .of_sampleMode (s.sampleMode.callNear_stores os _)
  | callFar os off sel => exact .finish (.of_sampleMode (s.sampleMode.callFar_stores os sel off))
  | callFarInd os m => exact .finish <| .bind_value fun _ => .of_sampleMode (s.sampleMode.callFar_stores os _ _)
  | ret os | retImm os v => exact .finish (.of_sampleMode (s.sampleMode.returnNear_stores os _))
  | retf os | retfImm os v => exact .finish (.of_sampleMode (s.sampleMode.returnFar_stores os _))
  -- software interrupts and interrupt return
  | int v => exact .finish (s.softInterrupt_stores v)
  | int3 => exact .finish (s.softInterrupt_stores 3)
  | into =>
    show Leads _ (if s.flags.ofl then _ else _)
    split
    · exact .finish (s.softInterrupt_stores 4)
    · exact .next (.refl _ s)
  | iret os => exact .finish (s.interruptReturn_stores os)
  -- strings
  | movsb as r rep => exact runString_storesElements (fun u => movsBody_stores .w8 as u r) rep
  | movsw os as r rep => exact runString_storesElements (fun u => movsBody_stores os.width as u r) rep
  | stosb as rep => exact runString_storesElements (stosBody_stores .w8 as) rep
  | stosw os as rep => exact runString_storesElements (stosBody_stores os.width as) rep
  | insb as rep => exact runString_storesElements (insBody_stores .w8 as) rep
  | insw os as rep => exact runString_storesElements (insBody_stores os.width as) rep
  | cmpsb as r rep => exact runCompare_storesNothing (cmpsBody_stores .w8 as r) rep
  | cmpsw os as r rep => exact runCompare_storesNothing (cmpsBody_stores os.width as r) rep
  | scasb as rep => exact runCompare_storesNothing (scasBody_stores .w8 as) rep
  | scasw os as rep => exact runCompare_storesNothing (scasBody_stores os.width as) rep
  | lodsb as r rep => exact runString_storesNothing (lodsBody_stores .w8 as r) rep
  | lodsw os as r rep => exact runString_storesNothing (lodsBody_stores os.width as r) rep
  | outsb as r rep => exact runString_storesNothing (outsBody_stores .w8 as r) rep
  | outsw os as r rep => exact runString_storesNothing (outsBody_stores os.width as r) rep
  -- port I/O
  | inImm w p | inDx w => exact .next (hr.of_mem_eq (s.ioRead_mem _ w))
  | outImm w p | outDx w => exact .next (hr.of_mem_eq (s.ioWrite_mem _ w _))
  -- flag control, no-operations and halt
  | clc | stc | cmc | cli | sti | cld | std | nop | wait => exact .next hr
  | hlt => exact .finish (.ite (.ok hr) (.error _))
  -- system registers
  | lgdt os m | lidt os m | lmsw x => exact .finish_value fun _ => hr
  | sgdt os m | sidt os m => exact .finish (.bind_state (State.writeTable_stores m _) fun _ ht => .ok ht)
  | smsw os d =>
    cases d with
    | mem m => exact .finish (.bind_state ((State.Stores.refl _ s).memWrite .w16 _ List.mem_cons_self) fun _ ht => .ok ht)
    | reg r => cases os <;> exact .finish (.ok fun _ _ => rfl)
  | clts => exact .next hr
  -- invalid encodings
  | invalid c | x87Escape op => exact .fault _

/-- Settles O20: a byte outside the stored ones has not changed. -/
theorem memoryFrame : Obligations.MemoryFrame := fun i s t h => exec_stores i s t h

end Sys2Proof.Machine
end

section
/-! SUPPORT. What the readers of the decoder answer on the bytes that the encoder gives: the fields of ModRM and SIB, immediates,
displacements and offsets, and the operands that begin with a ModRM byte (R221 to R225, R230, R233 to R236). -/

namespace Sys2Proof

/-! ## Fields and numbers (R50, R71, R221, R224) -/

@[simp] theorem hi2_mkFields (a : BitVec 2) (b c : BitVec 3) : hi2 (mkFields a b c) = a := by
  revert a b c
  decide

@[simp] theorem mid3_mkFields (a : BitVec 2) (b c : BitVec 3) : mid3 (mkFields a b c) = b := by
  revert a b c
  decide

@[simp] theorem low3_mkFields (a : BitVec 2) (b c : BitVec 3) : low3 (mkFields a b c) = c := by
  revert a b c
  decide

theorem mid3_toNat (m : Byte) : (mid3 m).toNat = regField m := by
  simp [mid3, regField, BitVec.extractLsb'_toNat, Nat.shiftRight_eq_div_pow]

theorem hi2_eq_three_iff (m : Byte) : hi2 m = 3#2 ↔ modIs3 m := by
  revert m
  decide

@[simp] theorem Reg.ofBits_toBits (r : Reg) : Reg.ofBits r.toBits = r := by cases r <;> rfl

theorem Reg.toBits_ofBits (b : BitVec 3) : (Reg.ofBits b).toBits = b := by
  revert b
  decide

@[simp] theorem SegReg.ofBits_toBits (r : SegReg) : SegReg.ofBits r.toBits = some r := by cases r <;> rfl

@[simp] theorem Scale.ofBits_toBits (k : Scale) : Scale.ofBits k.toBits = k := by cases k <;> rfl

theorem Base16.ofBits_toBits {b : Base16} (h : b ≠ .abs) : Base16.ofBits b.toBits = b := by
  cases b with
  | abs => exact absurd rfl h
  | _ => rfl

theorem byte_eq_ofNat {b : Byte} {n : Nat} (h : b.toNat = n) : b = BitVec.ofNat 8 n := by
  rw [← h, BitVec.ofNat_toNat, BitVec.setWidth_eq]

/-! ## Immediates and displacements (R122, R222, R223, R233 to R236) -/

section
variable (rest : List Byte)

@[simp] theorem take16_bytes16 (v : BitVec 16) : take16 (bytes16 v ++ rest) = some (v, rest) := by
  have h : v.extractLsb' 8 8 ++ v.extractLsb' 0 8 = v := by
    refine BitVec.eq_of_toNat_eq ?_
    simp only [Machine.toNat_append_eq, BitVec.extractLsb'_toNat, Nat.shiftRight_eq_div_pow]
    omega
  exact congrArg (fun x => some (x, rest)) h

@[simp] theorem take32_bytes32 (v : BitVec 32) : take32 (bytes32 v ++ rest) = some (v, rest) := by
  have h : v.extractLsb' 24 8 ++ v.extractLsb' 16 8 ++ v.extractLsb' 8 8 ++ v.extractLsb' 0 8 = v := by
    refine BitVec.eq_of_toNat_eq ?_
    simp only [Machine.toNat_append_eq, BitVec.extractLsb'_toNat, Nat.shiftRight_eq_div_pow]
    omega
  exact congrArg (fun x => some (x, rest)) h

theorem takeImm_immBytes {w : Width} {v : BitVec 32} (h : immFits w v = true) :
    takeImm w (immBytes w v ++ rest) = some (v, rest) := by
  have hv := of_decide_eq_true h
  cases w with
  | w8 => exact congrArg (fun x => some (x, rest)) hv
  | w16 => simpa [takeImm, immBytes] using hv
  | w32 => exact take32_bytes32 rest v

theorem takeOff_sizeBytes {sz : Size} {v : BitVec 32} (h : offFits sz v = true) :
    takeOff sz (sizeBytes sz v ++ rest) = some (v, rest) := by
  cases sz with
  | s16 => exact takeImm_immBytes (w := .w16) rest h
  | s32 => exact take32_bytes32 rest v

theorem takeJz_sizeBytes {os : Size} {v : BitVec 32} (h : jzFits os v = true) :
    takeJz os (sizeBytes os v ++ rest) = some (v, rest) := by
  cases os with
  | s16 => simpa [takeJz, sizeBytes] using of_decide_eq_true h
  | s32 => exact take32_bytes32 rest v

@[simp] theorem takeDisp16_bytesOf16 (d : Disp 16) : takeDisp16 d.modBits (d.bytesOf16 ++ rest) = some (d, rest) := by
  cases d with
  | none | byte d => rfl
  | full d => simp [takeDisp16, Disp.modBits, Disp.bytesOf16]

@[simp] theorem takeDisp32_bytesOf32 (d : Disp 32) : takeDisp32 d.modBits (d.bytesOf32 ++ rest) = some (d, rest) := by
  cases d with
  | none | byte d => rfl
  | full d => simp [takeDisp32, Disp.modBits, Disp.bytesOf32]

end

section
variable {n : Nat} {d : Disp n}

@[simp] theorem Disp.modBits_ne_three : d.modBits ≠ 3#2 := by cases d <;> simp [Disp.modBits]

theorem Disp.modBits_ne_zero (h : d.present = true) : d.modBits ≠ 0#2 := by
  cases d with
  | none => cases h
  | byte d | full d => simp [Disp.modBits]

theorem Disp.isFull_iff : d.isFull = true ↔ ∃ v, d = .full v := by cases d <;> simp [Disp.isFull]

end

/-! ## Operands that begin with a ModRM byte (R221 to R224, R230) -/

/-- The bytes `l` are a ModRM byte that meets `ok`, and then bytes from which `rd` reads `a`, whatever follows them (R221). -/
def EncodesModRM {α : Type} (rd : Byte → List Byte → Option (α × List Byte)) (ok : Byte → Prop) (l : List Byte) (a : α) : Prop :=
  ∃ m bs, l = m :: bs ∧ ok m ∧ ∀ rest, rd m (bs ++ rest) = some (a, rest)

theorem EncodesModRM.imp {α : Type} {rd : Byte → List Byte → Option (α × List Byte)} {ok ok' : Byte → Prop} {l : List Byte} {a : α}
    (h : EncodesModRM rd ok l a) (himp : ∀ m, ok m → ok' m) : EncodesModRM rd ok' l a := by
  obtain ⟨m, bs, hl, hm, hrd⟩ := h
  exact ⟨m, bs, hl, himp m hm, hrd⟩

theorem decodeEa16_base {b : Base16} {d : Disp 16} (g : BitVec 3) (rest : List Byte) (hb : b ≠ .abs)
    (hd : ¬(d.modBits = 0#2 ∧ b.toBits = 6#3)) :
    decodeEa16 (mkFields d.modBits g b.toBits) (d.bytesOf16 ++ rest) = some (.a16 b d, rest) := by
  simp [decodeEa16, hd, Base16.ofBits_toBits hb]

theorem encodeEa16_modRM (g : BitVec 3) {b : Base16} {d : Disp 16} (h : (Ea.a16 b d).wf = true) :
    EncodesModRM decodeEa16 (fun m => mid3 m = g ∧ hi2 m ≠ 3#2) (encodeEa g (.a16 b d)) (.a16 b d) := by
  cases b with
  | abs =>
    obtain ⟨v, rfl⟩ := Disp.isFull_iff.mp h
    exact ⟨_, _, rfl, by simp, fun rest => by simp [decodeEa16, Disp.bytesOf16]⟩
  | bp => exact ⟨_, _, rfl, by simp, fun rest => decodeEa16_base g rest (by simp) fun hd => Disp.modBits_ne_zero h hd.1⟩
  | bxSi | bxDi | bpSi | bpDi | si | di | bx =>
    exact ⟨_, _, rfl, by simp, fun rest => decodeEa16_base g rest (by simp) (by simp [Base16.toBits])⟩

theorem Reg.toBits_ne_four {r : Reg} (h : r ≠ .esp) : r.toBits ≠ 4#3 := by
  cases r with
  | esp => exact absurd rfl h
  | _ => decide

@[simp] theorem sibIndex_mkFields (c : BitVec 3) {i : Option (Reg × Scale)} (hi : ∀ k, i ≠ some (.esp, k)) :
    sibIndex (mkFields (indexBits i).1 (indexBits i).2 c) = i := by
  match i with
  | none => simp [sibIndex, indexBits]
  | some (r, k) =>
    have hr : r.toBits ≠ 4#3 := Reg.toBits_ne_four fun h => hi k (by rw [h])
    simp [sibIndex, indexBits, hr]

section
variable {b : Reg} {i : Option (Reg × Scale)} {d : Disp 32}

/-- ESP is no index (R224). -/
theorem Ea.index_ne_esp {b : Option Reg} (h : (Ea.a32 b i d).wf = true) (k : Scale) : i ≠ some (.esp, k) := by
  rintro rfl
  simp [Ea.wf] at h

/-- A base of EBP has a displacement (R223, R224). -/
theorem Ea.modBits_or_base (h : (Ea.a32 (some b) i d).wf = true) : ¬(d.modBits = 0#2 ∧ b.toBits = 5#3) := by
  rintro ⟨hd, hb⟩
  cases b with
  | ebp => exact Disp.modBits_ne_zero (Bool.and_eq_true_iff.mp h).2 hd
  | _ => cases hb

theorem decodeEa32_sib (h : (Ea.a32 (some b) i d).wf = true) (g : BitVec 3) (rest : List Byte) :
    decodeEa32 (mkFields d.modBits g 4) (mkFields (indexBits i).1 (indexBits i).2 b.toBits :: (d.bytesOf32 ++ rest))
      = some (.a32 (some b) i d, rest) := by
  simp [decodeEa32, decodeSib, Ea.index_ne_esp h, Ea.modBits_or_base h]

end

theorem encodeEa32_modRM (g : BitVec 3) {b : Option Reg} {i : Option (Reg × Scale)} {d : Disp 32} (h : (Ea.a32 b i d).wf = true) :
    EncodesModRM decodeEa32 (fun m => mid3 m = g ∧ hi2 m ≠ 3#2) (encodeEa g (.a32 b i d)) (.a32 b i d) := by
  match b, i with
  | none, none =>
    obtain ⟨v, rfl⟩ := Disp.isFull_iff.mp h
    exact ⟨_, _, rfl, by simp, fun rest => by simp [decodeEa32, Disp.bytesOf32]⟩
  | none, some x =>
    obtain ⟨v, rfl⟩ := Disp.isFull_iff.mp (Bool.and_eq_true_iff.mp h).2
    exact ⟨_, _, rfl, by simp, fun rest => by simp [decodeEa32, decodeSib, Disp.bytesOf32, Ea.index_ne_esp h]⟩
  | some b, some x => exact ⟨_, _, rfl, by simp, decodeEa32_sib h g⟩
  | some b, none =>
    by_cases hb : b = .esp
    · subst hb
      exact ⟨_, _, rfl, by simp, decodeEa32_sib h g⟩
    · exact ⟨_, _, if_neg hb, by simp, fun rest => by simp [decodeEa32, Reg.toBits_ne_four hb, Ea.modBits_or_base h]⟩

theorem encodeEa_modRM (g : BitVec 3) {ea : Ea} (h : ea.wf = true) :
    EncodesModRM (decodeEa ea.size) (fun m => mid3 m = g ∧ hi2 m ≠ 3#2) (encodeEa g ea) ea := by
  cases ea with
  | a16 b d => exact encodeEa16_modRM g h
  | a32 b i d => exact encodeEa32_modRM g h

section
variable {csz : Size} {p : Prefixes}

theorem encodeMem_modRM (g : BitVec 3) {x : MemRef} (h : x.wf csz p = true) :
    EncodesModRM (decodeMem (p.as csz) p) (fun m => mid3 m = g ∧ hi2 m ≠ 3#2) (encodeEa g x.ea) x := by
  obtain ⟨⟨hea, has⟩, hseg⟩ : (_ ∧ x.ea.size = p.as csz) ∧ x.seg = p.segOr x.ea.defaultSeg := by simpa [MemRef.wf] using h
  obtain ⟨m, bs, hl, hm, hrd⟩ := encodeEa_modRM g hea
  exact ⟨m, bs, hl, hm, fun rest => by simp [decodeMem, ← has, hrd, ← hseg]⟩

theorem encodeRm_modRM (g : BitVec 3) {e : Rm} (h : e.wf csz p = true) :
    EncodesModRM (decodeRm (p.as csz) p) (fun m => mid3 m = g) (encodeRm g e) e := by
  cases e with
  | reg r => exact ⟨_, _, rfl, by simp, fun rest => by simp [decodeRm]⟩
  | mem x =>
    obtain ⟨m, bs, hl, ⟨hg, h3⟩, hrd⟩ := encodeMem_modRM g h
    exact ⟨m, bs, hl, hg, fun rest => by simp [decodeRm, h3, hrd]⟩

/-! ### The reg field as a register, and as a number in a group -/

theorem mid3_toNat_of_ofNat {m : Byte} {k : Nat} (hk : k < 8) (h : mid3 m = BitVec.ofNat 3 k) : (mid3 m).toNat = k := by
  rw [h, BitVec.toNat_ofNat, Nat.mod_eq_of_lt hk]

theorem encodeRm_reg (g : Reg) {e : Rm} (h : e.wf csz p = true) :
    EncodesModRM (decodeRm (p.as csz) p) (fun m => Reg.ofBits (mid3 m) = g) (encodeRm g.toBits e) e :=
  (encodeRm_modRM _ h).imp fun m hm => by rw [hm, Reg.ofBits_toBits]

theorem encodeRm_number {k : Nat} (hk : k < 8) {e : Rm} (h : e.wf csz p = true) :
    EncodesModRM (decodeRm (p.as csz) p) (fun m => (mid3 m).toNat = k) (encodeRm (BitVec.ofNat 3 k) e) e :=
  (encodeRm_modRM _ h).imp fun _ hm => mid3_toNat_of_ofNat hk hm

theorem encodeMem_reg (g : Reg) {x : MemRef} (h : x.wf csz p = true) :
    EncodesModRM (decodeMem (p.as csz) p) (fun m => Reg.ofBits (mid3 m) = g ∧ hi2 m ≠ 3#2) (encodeEa g.toBits x.ea) x :=
  (encodeMem_modRM _ h).imp fun m hm => ⟨by rw [hm.1, Reg.ofBits_toBits], hm.2⟩

theorem encodeMem_number {k : Nat} (hk : k < 8) {x : MemRef} (h : x.wf csz p = true) :
    EncodesModRM (decodeMem (p.as csz) p) (fun m => (mid3 m).toNat = k ∧ hi2 m ≠ 3#2) (encodeEa (BitVec.ofNat 3 k) x.ea) x :=
  (encodeMem_modRM _ h).imp fun _ hm => ⟨mid3_toNat_of_ofNat hk hm.1, hm.2⟩

end

end Sys2Proof
end

section
/-! SUPPORT. The invalid encodings: which bytes the decoder refuses, and what it answers for them (R251, R260 to R262). -/

namespace Sys2Proof

/-! ## Which bytes are invalid -/

theorem badOp1_or_isX87_of_mem {b : Byte} (h : b ∈ invalidOneByte) : badOp1 b = true ∨ isX87 b = true := by
  revert b
  decide

theorem mem_twoByteOpcodes_of_goodOp2 {b : Byte} (h : goodOp2 b = true) : b ∈ twoByteOpcodes := by
  revert b
  decide

section
variable {op m : Byte}

theorem badModRM1_of_invalidForm (h : InvalidForm1 op m) : badModRM1 op m = true := by
  rcases h with ⟨rfl, h⟩ | ⟨rfl, h⟩ | ⟨rfl, h⟩ | ⟨rfl | rfl, h⟩ | ⟨rfl, h⟩ | ⟨rfl, h⟩ | ⟨rfl | rfl | rfl, h⟩ | ⟨rfl, hr, h⟩
    <;> simp [badModRM1, mid3_toNat, hi2_eq_three_iff] <;> omega

theorem badModRM2_of_invalidForm (h : InvalidForm2 op m) : badModRM2 op m = true := by
  rcases h with ⟨rfl, h⟩ | ⟨rfl, h⟩ | ⟨rfl | rfl | rfl, h⟩ | ⟨rfl | rfl, h⟩
    <;> simp [badModRM2, mid3_toNat, hi2_eq_three_iff] <;> omega

end

/-! ## What they decode to, whatever the prefixes and the bytes that follow -/

section
variable (csz : Size) (p : Prefixes) {b op m : Byte} (bs : List Byte)

theorem decode_of_badOp1 (h : badOp1 b = true) : decode csz p (b :: bs) = some (.invalid (.one b), bs) := by
  obtain ((rfl | rfl) | rfl) | rfl : ((b = 0x62 ∨ b = 0x63) ∨ b = 0xD6) ∨ b = 0xF1 := by simpa [badOp1] using h
  all_goals rfl

theorem decode_of_isX87 (h : isX87 b = true) : decode csz p (b :: bs) = some (.x87Escape b, bs) := by
  obtain ⟨hlo, hhi⟩ : 0xD8 ≤ b.toNat ∧ b.toNat ≤ 0xDF := by simpa [isX87] using h
  obtain ⟨n, hn⟩ : ∃ n, b.toNat = n := ⟨_, rfl⟩
  obtain rfl := byte_eq_ofNat hn
  rw [hn] at hlo hhi
  interval_cases n <;> rfl

theorem decode_of_not_goodOp2 (h : goodOp2 b = false) : decode csz p (0x0F :: b :: bs) = some (.invalid (.two b), bs) := by
  trans decode0F (p.os csz) (p.as csz) p b bs
  · rfl
  · simp [decode0F, h]

/-- Each of the ten opcodes tests its ModRM byte first (R261). -/
theorem decode_of_badModRM1 (h : badModRM1 op m = true) :
    decode csz p (op :: m :: bs) = some (.invalid (.oneModRM op m), bs) := by
  have hop := h
  unfold badModRM1 at hop
  split at hop
  case h_11 => cases hop
  all_goals
    next heq =>
      obtain rfl := byte_eq_ofNat heq
      exact if_pos h

/-- Each of the seven opcodes tests its ModRM byte first (R261). -/
theorem decode_of_badModRM2 (h : badModRM2 op m = true) :
    decode csz p (0x0F :: op :: m :: bs) = some (.invalid (.twoModRM op m), bs) := by
  have hop := h
  unfold badModRM2 at hop
  split at hop
  case h_8 => cases hop
  all_goals
    next heq =>
      obtain rfl := byte_eq_ofNat heq
      exact if_pos h

theorem decode_badCode {c : BadCode} (h : c.wf = true) : decode csz p (c.bytes ++ bs) = some (.invalid c, bs) := by
  cases c with
  | one b => exact decode_of_badOp1 csz p bs h
  | two b => exact decode_of_not_goodOp2 csz p bs (by simpa [BadCode.wf] using h)
  | oneModRM op m => exact decode_of_badModRM1 csz p bs h
  | twoModRM op m => exact decode_of_badModRM2 csz p bs h

end

end Sys2Proof
end

section
/-! SUPPORT. The decoder on what the encoder gives: one lemma for each shape of encoding, then one case for each instruction. An
opcode is a numeral in every case, so that the decoder's tests of it compute. -/

namespace Sys2Proof

section
variable {csz : Size} {p : Prefixes} {rest : List Byte}

/-! ## A unit by its parts -/

/-- An opcode and one operand. -/
theorem decode_read {α : Type} {x : Option (α × List Byte)} {a : α} {f : α → Instr} {bs : List Byte} (hx : x = some (a, rest))
    (hdec : decode csz p bs = x.bind fun y => some (f y.1, y.2)) : decode csz p bs = some (f a, rest) := by
  rw [hdec, hx]
  rfl

/-- An opcode and one operand, then another. -/
theorem decode_read_read {α β : Type} {x : Option (α × List Byte)} {take : List Byte → Option (β × List Byte)} {a : α} {v : β}
    {bs' : List Byte} {f : α → β → Instr} {bs : List Byte} (hx : x = some (a, bs')) (htake : take bs' = some (v, rest))
    (hdec : decode csz p bs = x.bind fun y => (take y.2).bind fun z => some (f y.1 z.1, z.2)) :
    decode csz p bs = some (f a v, rest) := by
  rw [hdec, hx]
  simp [htake]

section
variable {α : Type} {rd : Byte → List Byte → Option (α × List Byte)} {ok : Byte → Prop} {l : List Byte} {a : α}
  (h : EncodesModRM rd ok l a) (op : List Byte)
include h

/-- The opcode bytes, and an operand that begins with a ModRM byte. -/
theorem EncodesModRM.unit {f : α → Instr}
    (hdec : ∀ m bs, ok m → decode csz p (op ++ m :: bs) = (rd m bs).bind fun x => some (f x.1, x.2)) :
    decode csz p (op ++ (l ++ rest)) = some (f a, rest) := by
  obtain ⟨m, bs, rfl, hm, hrd⟩ := h
  exact decode_read (hrd rest) (hdec m _ hm)

/-- The same, and an immediate. -/
theorem EncodesModRM.unit_imm {β : Type} {f : α → β → Instr} {tail : List Byte} {take : List Byte → Option (β × List Byte)} {v : β}
    (htail : take (tail ++ rest) = some (v, rest))
    (hdec : ∀ m bs, ok m →
      decode csz p (op ++ m :: bs) = (rd m bs).bind fun x => (take x.2).bind fun y => some (f x.1 y.1, y.2)) :
    decode csz p (op ++ (l ++ tail ++ rest)) = some (f a v, rest) := by
  obtain ⟨m, bs, rfl, hm, hrd⟩ := h
  rw [List.append_assoc]
  exact decode_read_read (hrd (tail ++ rest)) htail (hdec m _ hm)

end

/-- Bit 0 of an opcode chooses the width (R241). -/
theorem decode_opBit {n : Nat} {w : Width} (hw : widthOk csz p w = true) {bs : List Byte} {x : Width → Option (Instr × List Byte)}
    (h8 : decode csz p (opByte n :: bs) = x .w8) (hos : decode csz p (opByte (n + 1) :: bs) = x (p.os csz).width) :
    decode csz p (opByte (n + w.opBit) :: bs) = x w := by
  have hbit : (p.os csz).width.opBit = 1 := by cases p.os csz <;> rfl
  obtain rfl | rfl : w = .w8 ∨ w = (p.os csz).width := by simpa [widthOk] using hw
  · exact h8
  · rwa [hbit]

/-! ## Two operands (R250, R252) -/

section
variable {w : Width} {d : Rm} {s : Operand}

theorem decode_alu {k : Nat} (hk : k < 8) (h : pairOk csz p w d s = true) :
    decode csz p (encodeAlu k w d s ++ rest) = some (aluInstr k w d s, rest) := by
  match s with
  | .rm (.reg g) =>
    obtain ⟨hw, hd⟩ := Bool.and_eq_true_iff.mp h
    refine (encodeRm_reg g hd).unit [opByte (8 * k + w.opBit)] (f := fun e => aluInstr k w e (.rm (.reg g))) ?_
    rintro m bs rfl
    interval_cases k <;> apply decode_opBit hw <;> rfl
  | .imm v =>
    obtain ⟨hwd, hv⟩ := Bool.and_eq_true_iff.mp h
    obtain ⟨hw, hd⟩ := Bool.and_eq_true_iff.mp hwd
    refine (encodeRm_number hk hd).unit_imm [opByte (0x80 + w.opBit)] (f := fun e v => aluInstr k w e (.imm v))
      (takeImm_immBytes rest hv) ?_
    rintro m bs rfl
    apply decode_opBit hw <;> rfl
  | .rm (.mem x) =>
    obtain ⟨hwx, hd⟩ := Bool.and_eq_true_iff.mp h
    obtain ⟨hw, hx⟩ := Bool.and_eq_true_iff.mp hwx
    cases d with
    | mem y => cases hd
    | reg g =>
      refine (encodeRm_reg g (e := .mem x) hx).unit [opByte (8 * k + 2 + w.opBit)] (f := fun e => aluInstr k w (.reg g) (.rm e)) ?_
      rintro m bs rfl
      interval_cases k <;> apply decode_opBit hw <;> rfl

theorem decode_test (h : (Instr.test w d s).wf csz p = true) :
    decode csz p (encode (.test w d s) ++ rest) = some (.test w d s, rest) := by
  obtain ⟨hpair, hs⟩ := Bool.and_eq_true_iff.mp h
  match s with
  | .rm (.reg g) =>
    obtain ⟨hw, hd⟩ := Bool.and_eq_true_iff.mp hpair
    refine (encodeRm_reg g hd).unit [opByte (0x84 + w.opBit)] (f := fun e => .test w e (.rm (.reg g))) ?_
    rintro m bs rfl
    apply decode_opBit hw <;> rfl
  | .imm v =>
    obtain ⟨hwd, hv⟩ := Bool.and_eq_true_iff.mp hpair
    obtain ⟨hw, hd⟩ := Bool.and_eq_true_iff.mp hwd
    refine (encodeRm_number (k := 0) (by decide) hd).unit_imm [opByte (0xF6 + w.opBit)] (f := fun e v => .test w e (.imm v))
      (takeImm_immBytes rest hv) fun m bs hm => ?_
    trans decodeGroup3 (p.as csz) p w (m :: bs)
    · apply decode_opBit hw <;> rfl
    · simp [decodeGroup3, take8, hm]
  | .rm (.mem x) => cases hs

theorem decode_mov (h : (Instr.mov w d s).wf csz p = true) :
    decode csz p (encode (.mov w d s) ++ rest) = some (.mov w d s, rest) := by
  match s with
  | .rm (.reg g) =>
    obtain ⟨hw, hd⟩ := Bool.and_eq_true_iff.mp h
    refine (encodeRm_reg g hd).unit [opByte (0x88 + w.opBit)] (f := fun e => .mov w e (.rm (.reg g))) ?_
    rintro m bs rfl
    apply decode_opBit hw <;> rfl
  | .imm v =>
    obtain ⟨hwd, hv⟩ := Bool.and_eq_true_iff.mp h
    obtain ⟨hw, hd⟩ := Bool.and_eq_true_iff.mp hwd
    refine (encodeRm_number (k := 0) (by decide) hd).unit_imm [opByte (0xC6 + w.opBit)] (f := fun e v => .mov w e (.imm v))
      (takeImm_immBytes rest hv) fun m bs hm => ?_
    apply decode_opBit hw
    · trans decodeC0 (p.os csz) (p.as csz) p 0xC6 (m :: bs)
      · rfl
      · simp [decodeC0, take8, badModRM1, opWidth, hm]
    · trans decodeC0 (p.os csz) (p.as csz) p 0xC7 (m :: bs)
      · rfl
      · simp [decodeC0, take8, badModRM1, opWidth, hm]
  | .rm (.mem x) =>
    obtain ⟨hwx, hd⟩ := Bool.and_eq_true_iff.mp h
    obtain ⟨hw, hx⟩ := Bool.and_eq_true_iff.mp hwx
    cases d with
    | mem y => cases hd
    | reg g =>
      refine (encodeRm_reg g (e := .mem x) hx).unit [opByte (0x8A + w.opBit)] (f := fun e => .mov w (.reg g) (.rm e)) ?_
      rintro m bs rfl
      apply decode_opBit hw <;> rfl

end

/-! ## An E operand with a width (R250, R253 to R255) -/

section
variable {w : Width} {e : Rm} (hw : widthOk csz p w = true) (he : e.wf csz p = true)
include hw he

theorem decode_xchg (g : Reg) : decode csz p (encode (.xchg w e g) ++ rest) = some (.xchg w e g, rest) := by
  refine (encodeRm_reg g he).unit [opByte (0x86 + w.opBit)] (f := fun e => .xchg w e g) ?_
  rintro m bs rfl
  apply decode_opBit hw <;> rfl

theorem decode_group3 {k : Nat} (hk : k < 8) {f : Width → Rm → Instr}
    (hdec : ∀ m bs, (mid3 m).toNat = k →
      decodeGroup3 (p.as csz) p w (m :: bs) = (decodeRm (p.as csz) p m bs).bind fun x => some (f w x.1, x.2)) :
    decode csz p (encodeGroup (0xF6 + w.opBit) k e ++ rest) = some (f w e, rest) := by
  refine (encodeRm_number hk he).unit [opByte (0xF6 + w.opBit)] (f := f w) fun m bs hm => Eq.trans ?_ (hdec m bs hm)
  apply decode_opBit hw <;> rfl

theorem decode_incDec {k : Nat} (hk : k < 2) :
    decode csz p (encodeGroup (0xFE + w.opBit) k e ++ rest) = some (if k = 0 then .inc w e else .dec w e, rest) := by
  refine (encodeRm_number (by omega) he).unit [opByte (0xFE + w.opBit)] (f := fun e => if k = 0 then .inc w e else .dec w e)
    fun m bs hm => ?_
  apply decode_opBit hw
  · trans decodeGroup45 (p.os csz) (p.as csz) p 0xFE (m :: bs)
    · rfl
    · interval_cases k <;> simp [decodeGroup45, take8, badModRM1, opWidth, hm]
  · trans decodeGroup45 (p.os csz) (p.as csz) p 0xFF (m :: bs)
    · rfl
    · interval_cases k <;> simp [decodeGroup45, take8, badModRM1, opWidth, hm]

theorem decode_shift {k : Nat} (hk : k < 8) (c : ShiftCount) :
    decode csz p (encodeShift k w e c ++ rest) = some (shiftInstr k w e c, rest) := by
  have hrm := encodeRm_number hk he
  cases c with
  | imm n =>
    refine hrm.unit_imm (tail := [n]) [opByte (0xC0 + w.opBit)] (f := fun e n => shiftInstr k w e (.imm n)) (take := take8) rfl ?_
    rintro m bs rfl
    apply decode_opBit hw <;> rfl
  | one =>
    refine hrm.unit [opByte (0xD0 + w.opBit)] (f := fun e => shiftInstr k w e .one) ?_
    rintro m bs rfl
    apply decode_opBit hw <;> rfl
  | cl =>
    refine hrm.unit [opByte (0xD2 + w.opBit)] (f := fun e => shiftInstr k w e .cl) ?_
    rintro m bs rfl
    apply decode_opBit hw <;> rfl

end

/-! ## One-byte opcodes with an E operand or memory (R250, R256, R259) -/

section
variable {e : Rm} (he : e.wf csz p = true)
include he

theorem decode_imulImm (g : Reg) {v : BitVec 32} (hv : immFits (p.os csz).width v = true) :
    decode csz p (encode (.imulImm (p.os csz) g e v) ++ rest) = some (.imulImm (p.os csz) g e v, rest) := by
  refine (encodeRm_reg g he).unit_imm [0x69] (f := fun e v => .imulImm (p.os csz) g e v) (takeImm_immBytes rest hv) ?_
  rintro m bs rfl
  rfl

theorem decode_movFromSeg (r : SegReg) :
    decode csz p (encode (.movFromSeg (p.os csz) e r) ++ rest) = some (.movFromSeg (p.os csz) e r, rest) := by
  refine (encodeRm_modRM r.toBits he).unit [0x8C] (f := fun e => .movFromSeg (p.os csz) e r) fun m bs hm => ?_
  have hr : ¬6 ≤ r.toBits.toNat := by cases r <;> decide
  trans decode80 (p.os csz) (p.as csz) p 0x8C (m :: bs)
  · rfl
  · simp [decode80, take8, badModRM1, hm, hr]

theorem decode_movToSeg {r : SegReg} (hcs : r ≠ .cs) :
    decode csz p (encode (.movToSeg r e) ++ rest) = some (.movToSeg r e, rest) := by
  refine (encodeRm_modRM r.toBits he).unit [0x8E] (f := .movToSeg r) fun m bs hm => ?_
  have hr : r.toBits.toNat ≠ 1 ∧ ¬6 ≤ r.toBits.toNat := by
    cases r with
    | cs => exact absurd rfl hcs
    | _ => decide
  trans decode80 (p.os csz) (p.as csz) p 0x8E (m :: bs)
  · rfl
  · simp [decode80, take8, badModRM1, hm, hr]

theorem decode_popRm : decode csz p (encode (.popRm (p.os csz) e) ++ rest) = some (.popRm (p.os csz) e, rest) := by
  refine (encodeRm_number (k := 0) (by decide) he).unit [0x8F] (f := .popRm (p.os csz)) fun m bs hm => ?_
  trans decode80 (p.os csz) (p.as csz) p 0x8F (m :: bs)
  · rfl
  · simp [decode80, take8, badModRM1, hm]

theorem decode_group5 {k : Nat} (hk : k < 8) {f : Rm → Instr}
    (hdec : ∀ m bs, (mid3 m).toNat = k →
      decodeGroup45 (p.os csz) (p.as csz) p 0xFF (m :: bs) = (decodeRm (p.as csz) p m bs).bind fun x => some (f x.1, x.2)) :
    decode csz p (encodeGroup 0xFF k e ++ rest) = some (f e, rest) :=
  (encodeRm_number hk he).unit [0xFF] hdec

theorem decode_push : decode csz p (encode (.push (p.os csz) e) ++ rest) = some (.push (p.os csz) e, rest) := by
  cases e with
  | reg r => cases r <;> rfl
  | mem x => exact decode_group5 (k := 6) he (by decide) fun m bs hm => by simp [decodeGroup45, take8, badModRM1, hm]

end

section
variable {x : MemRef} (hx : x.wf csz p = true)
include hx

/-- An opcode with memory, and a number in its reg field. -/
theorem decode_mem {op : List Byte} {k : Nat} (hk : k < 8) {f : MemRef → Instr}
    (hdec : ∀ m bs, (mid3 m).toNat = k → hi2 m ≠ 3#2 →
      decode csz p (op ++ m :: bs) = (decodeMem (p.as csz) p m bs).bind fun x => some (f x.1, x.2)) :
    decode csz p (op ++ (encodeEa (BitVec.ofNat 3 k) x.ea ++ rest)) = some (f x, rest) :=
  (encodeMem_number hk hx).unit op fun m bs hm => hdec m bs hm.1 hm.2

/-- The far pointers of group 5 (R256). -/
theorem decode_group5_mem {k : Nat} (hk : k < 8) {f : MemRef → Instr}
    (hdec : ∀ m bs, (mid3 m).toNat = k → hi2 m ≠ 3#2 →
      decodeGroup45 (p.os csz) (p.as csz) p 0xFF (m :: bs) = (decodeMem (p.as csz) p m bs).bind fun x => some (f x.1, x.2)) :
    decode csz p (0xFF :: (encodeEa (BitVec.ofNat 3 k) x.ea ++ rest)) = some (f x, rest) :=
  decode_mem (op := [0xFF]) hx hk hdec

/-- The table-register instructions of group 7 (R257). -/
theorem decode_group7_mem {k : Nat} (hk : k < 8) {f : MemRef → Instr}
    (hdec : ∀ m bs, (mid3 m).toNat = k → hi2 m ≠ 3#2 →
      decodeGroup7 (p.os csz) (p.as csz) p 0x01 (m :: bs) = (decodeMem (p.as csz) p m bs).bind fun x => some (f x.1, x.2)) :
    decode csz p (0x0F :: 0x01 :: (encodeEa (BitVec.ofNat 3 k) x.ea ++ rest)) = some (f x, rest) :=
  decode_mem (op := [0x0F, 0x01]) hx hk hdec

/-- A far-pointer load, which a part `sub` of the decoder reads after its opcode (R250, R251). -/
theorem decode_farLoad (g : Reg) (op : List Byte) {sub : List Byte → Option (Instr × List Byte)} {f : Reg → MemRef → Instr}
    (hop : ∀ bs, decode csz p (op ++ bs) = sub bs)
    (hsub : ∀ m bs, hi2 m ≠ 3#2 →
      sub (m :: bs) = (decodeMem (p.as csz) p m bs).bind fun x => some (f (Reg.ofBits (mid3 m)) x.1, x.2)) :
    decode csz p (op ++ (encodeEa g.toBits x.ea ++ rest)) = some (f g x, rest) := by
  refine (encodeMem_reg g hx).unit op (f := f g) ?_
  rintro m bs ⟨rfl, h3⟩
  exact (hop _).trans (hsub m bs h3)

end

theorem decode_lea (g : Reg) {ea : Ea} (hea : ea.wf = true) (has : ea.size = p.as csz) :
    decode csz p (encode (.lea (p.os csz) g ea) ++ rest) = some (.lea (p.os csz) g ea, rest) := by
  refine (encodeEa_modRM g.toBits hea).unit [0x8D] (f := .lea (p.os csz) g) fun m bs hm => ?_
  trans decode80 (p.os csz) (p.as csz) p 0x8D (m :: bs)
  · rfl
  · simp [decode80, take8, badModRM1, hm, has]

/-! ## Two-byte opcodes with an E operand (R251, R257, R258) -/

section
variable {e : Rm} (he : e.wf csz p = true)
include he

theorem decode_0F_reg {op : Nat} {g : Reg} {f : Reg → Rm → Instr}
    (hdec : ∀ m bs, decode csz p (0x0F :: opByte op :: m :: bs)
      = (decodeRm (p.as csz) p m bs).bind fun x => some (f (Reg.ofBits (mid3 m)) x.1, x.2)) :
    decode csz p (encode0F op g.toBits e ++ rest) = some (f g e, rest) := by
  refine (encodeRm_reg g he).unit [0x0F, opByte op] (f := f g) ?_
  rintro m bs rfl
  exact hdec m bs

/-- A double shift, by Ib or by CL (R480, R481). -/
theorem decode_double {op : Nat} {g : Reg} {c : ShiftCount} (hc : c.doubleOk = true) {f : Rm → Reg → ShiftCount → Instr}
    (himm : ∀ m bs, decode csz p (0x0F :: opByte op :: m :: bs) = (decodeRm (p.as csz) p m bs).bind fun x =>
      (take8 x.2).bind fun n => some (f x.1 (Reg.ofBits (mid3 m)) (.imm n.1), n.2))
    (hcl : ∀ m bs, decode csz p (0x0F :: opByte (op + 1) :: m :: bs) = (decodeRm (p.as csz) p m bs).bind fun x =>
      some (f x.1 (Reg.ofBits (mid3 m)) .cl, x.2)) :
    decode csz p (encodeDouble op e g c ++ rest) = some (f e g c, rest) := by
  cases c with
  | imm n =>
    refine (encodeRm_reg g he).unit_imm (tail := [n]) [0x0F, opByte op] (f := fun e n => f e g (.imm n)) (take := take8) rfl ?_
    rintro m bs rfl
    exact himm m bs
  | cl => exact decode_0F_reg (f := fun g e => f e g .cl) he hcl
  | one => cases hc

theorem decode_bit {k : Nat} (hk : 4 ≤ k ∧ k < 8) (o : BitOff) :
    decode csz p (encodeBit k e o ++ rest) = some (bitInstr k (p.os csz) e o, rest) := by
  obtain ⟨h4, h8⟩ := hk
  cases o with
  | reg g =>
    refine decode_0F_reg (f := fun g e => bitInstr k (p.os csz) e (.reg g)) he fun m bs => ?_
    interval_cases k <;> rfl
  | imm n =>
    refine (encodeRm_number h8 he).unit_imm (tail := [n]) [0x0F, 0xBA] (f := fun e n => bitInstr k (p.os csz) e (.imm n))
      (take := take8) rfl fun m bs hm => ?_
    trans decode0F (p.os csz) (p.as csz) p 0xBA (m :: bs)
    · rfl
    · simp [decode0F, goodOp2, take8, badModRM2, hm, Nat.not_le.mpr h4]

theorem decode_setcc (c : Cond) : decode csz p (encodeSetcc c e ++ rest) = some (setccInstr c e, rest) := by
  refine (encodeRm_modRM 0 he).unit [0x0F, opByte (0x90 + c.code)] (f := setccInstr c) fun m bs _ => ?_
  cases c <;> rfl

/-- LMSW and SMSW of group 7 (R257). -/
theorem decode_group7_rm {k : Nat} (hk : k < 8) {f : Rm → Instr}
    (hdec : ∀ m bs, (mid3 m).toNat = k →
      decodeGroup7 (p.os csz) (p.as csz) p 0x01 (m :: bs) = (decodeRm (p.as csz) p m bs).bind fun x => some (f x.1, x.2)) :
    decode csz p (encode0F 0x01 (BitVec.ofNat 3 k) e ++ rest) = some (f e, rest) :=
  (encodeRm_number hk he).unit [0x0F, 0x01] hdec

end

/-! ## No ModRM byte -/

theorem decode_jcc (c : Cond) {t : Rel} (ht : t.wf (p.os csz) = true) :
    decode csz p (encodeJcc c (p.os csz) t ++ rest) = some (jccInstr c (p.os csz) t, rest) := by
  cases t with
  | short d => cases c <;> rfl
  | near d =>
    refine decode_read (f := fun d => jccInstr c (p.os csz) (.near d)) (takeJz_sizeBytes rest ht) ?_
    cases c <;> rfl

theorem decode_jmpRel {t : Rel} (ht : t.wf (p.os csz) = true) :
    decode csz p (encode (.jmpRel (p.os csz) t) ++ rest) = some (.jmpRel (p.os csz) t, rest) := by
  cases t with
  | short d => rfl
  | near d => exact decode_read (f := fun d => .jmpRel (p.os csz) (.near d)) (takeJz_sizeBytes rest ht) rfl

/-- A far pointer in the instruction (R235). -/
theorem decode_far {op : Byte} {off : BitVec 32} {sel : BitVec 16} (hoff : offFits (p.os csz) off = true)
    {f : BitVec 32 → BitVec 16 → Instr}
    (hdec : ∀ bs, decode csz p (op :: bs)
      = (takeOff (p.os csz) bs).bind fun x => (take16 x.2).bind fun y => some (f x.1 y.1, y.2)) :
    decode csz p (op :: (sizeBytes (p.os csz) off ++ bytes16 sel ++ rest)) = some (f off sel, rest) := by
  rw [List.append_assoc]
  exact decode_read_read (takeOff_sizeBytes _ hoff) (take16_bytes16 rest sel) (hdec _)

section
variable {w : Width} (hw : widthOk csz p w = true)
include hw

/-- MOV between the accumulator and a direct memory offset (R236). -/
theorem decode_moffs {n : Nat} {x : Moffs} (hx : x.wf csz p = true) {f : Width → Moffs → Instr}
    (h8 : ∀ bs, decode csz p (opByte n :: bs) = (takeOff (p.as csz) bs).bind fun y =>
      some (f .w8 ⟨p.segOr .ds, p.as csz, y.1⟩, y.2))
    (hos : ∀ bs, decode csz p (opByte (n + 1) :: bs) = (takeOff (p.as csz) bs).bind fun y =>
      some (f (p.os csz).width ⟨p.segOr .ds, p.as csz, y.1⟩, y.2)) :
    decode csz p (opByte (n + w.opBit) :: (sizeBytes x.size x.off ++ rest)) = some (f w x, rest) := by
  obtain ⟨seg, size, off⟩ := x
  obtain ⟨hsrc, hoff⟩ := Bool.and_eq_true_iff.mp hx
  obtain ⟨hsize, hseg⟩ := Bool.and_eq_true_iff.mp hsrc
  obtain rfl : size = p.as csz := of_decide_eq_true hsize
  obtain rfl : seg = p.segOr .ds := of_decide_eq_true hseg
  refine decode_read (f := fun off => f w ⟨p.segOr .ds, p.as csz, off⟩) (takeOff_sizeBytes rest hoff) ?_
  exact decode_opBit hw (x := fun w => (takeOff (p.as csz) _).bind fun y => some (f w ⟨p.segOr .ds, p.as csz, y.1⟩, y.2))
    (h8 _) (hos _)

end

/-! ## Every instruction -/

theorem of_decide_and {a b : Prop} [Decidable a] [Decidable b] (h : (decide a && decide b) = true) : a ∧ b := by simpa using h

theorem of_decide_and₃ {a b c : Prop} [Decidable a] [Decidable b] [Decidable c] (h : (decide a && decide b && decide c) = true) :
    a ∧ b ∧ c := by simpa [and_assoc] using h

theorem of_decide_and₄ {a b c d : Prop} [Decidable a] [Decidable b] [Decidable c] [Decidable d]
    (h : (decide a && decide b && decide c && decide d) = true) : a ∧ b ∧ c ∧ d := by simpa [and_assoc] using h

theorem osOk_and {os : Size} {b : Bool} (h : (osOk csz p os && b) = true) : os = p.os csz ∧ b = true := by
  simpa [osOk] using h

/-- One case for each shape of encoding. -/
theorem decode_encode {i : Instr} (h : i.wf csz p = true) : decode csz p (encode i ++ rest) = some (i, rest) := by
  cases i with
  -- no operand, or a byte
  | prefixEs | prefixCs | prefixSs | prefixDs | prefixFs | prefixGs | prefixOpSize | prefixAddrSize | prefixLock | prefixRepne
  | prefixRep | daa | das | aaa | aas | aam | aad | lahf | sahf | int | int3 | into | clc | stc | cmc | cli | sti | cld | std | nop
  | wait | hlt | clts => rfl
  | cbw os | cwd os | pushEs os | pushCs os | pushSs os | pushDs os | pushFs os | pushGs os | popEs os | popSs os | popDs os
  | popFs os | popGs os | pusha os | popa os | pushf os | leave os | ret os | retf os | iret os =>
    obtain rfl := of_decide_eq_true h
    rfl
  | popf | popfd =>
    trans decode80 (p.os csz) (p.as csz) p 0x9D rest
    · rfl
    · rw [← of_decide_eq_true h]
      rfl
  | pop os r =>
    obtain rfl := of_decide_eq_true h
    cases r <;> rfl
  -- two operands
  | add w d s | or w d s | adc w d s | sbb w d s | and w d s | sub w d s | xor w d s | cmp w d s => exact decode_alu (by decide) h
  | test w d s => exact decode_test h
  | mov w d s => exact decode_mov h
  -- an E operand with a width
  | inc w e =>
    obtain ⟨hw, he⟩ := Bool.and_eq_true_iff.mp h
    exact decode_incDec hw he (k := 0) (by decide)
  | dec w e =>
    obtain ⟨hw, he⟩ := Bool.and_eq_true_iff.mp h
    exact decode_incDec hw he (k := 1) (by decide)
  | neg w e | not w e | mul w e | imul w e | div w e | idiv w e =>
    obtain ⟨hw, he⟩ := Bool.and_eq_true_iff.mp h
    exact decode_group3 hw he (by decide) fun m bs hm => by simp [decodeGroup3, take8, hm]
  | rol w e c | ror w e c | rcl w e c | rcr w e c | shl w e c | shr w e c | sar w e c =>
    obtain ⟨hw, he⟩ := Bool.and_eq_true_iff.mp h
    exact decode_shift hw he (by decide) c
  | xchg w e g =>
    obtain ⟨hw, he⟩ := Bool.and_eq_true_iff.mp h
    exact decode_xchg hw he g
  -- an E operand with an operand size
  | imulReg os g e | bsf os g e | bsr os g e | movzxByte os g e | movzxWord os g e | movsxByte os g e | movsxWord os g e =>
    obtain ⟨rfl, he⟩ := osOk_and h
    exact decode_0F_reg he fun m bs => rfl
  | imulImm os g e v =>
    obtain ⟨hose, hv⟩ := Bool.and_eq_true_iff.mp h
    obtain ⟨rfl, he⟩ := osOk_and hose
    exact decode_imulImm he g hv
  | shld os e g c | shrd os e g c =>
    obtain ⟨hose, hc⟩ := Bool.and_eq_true_iff.mp h
    obtain ⟨rfl, he⟩ := osOk_and hose
    exact decode_double he hc (fun m bs => rfl) fun m bs => rfl
  | bt os e o | bts os e o | btr os e o | btc os e o =>
    obtain ⟨rfl, he⟩ := osOk_and h
    exact decode_bit he (by decide) o
  | movFromSeg os e r =>
    obtain ⟨rfl, he⟩ := osOk_and h
    exact decode_movFromSeg he r
  | push os e =>
    obtain ⟨rfl, he⟩ := osOk_and h
    exact decode_push he
  | popRm os e =>
    obtain ⟨rfl, he⟩ := osOk_and h
    exact decode_popRm he
  | callInd os e | jmpInd os e =>
    obtain ⟨rfl, he⟩ := osOk_and h
    exact decode_group5 he (by decide) fun m bs hm => by simp [decodeGroup45, take8, badModRM1, hm]
  | smsw os e =>
    obtain ⟨rfl, he⟩ := osOk_and h
    exact decode_group7_rm (k := 4) he (by decide) fun m bs hm => by simp [decodeGroup7, take8, badModRM2, hm]
  -- an E operand alone
  | lmsw e => exact decode_group7_rm (k := 6) h (by decide) fun m bs hm => by simp [decodeGroup7, take8, badModRM2, hm]
  | movToSeg r e =>
    obtain ⟨hr, he⟩ := Bool.and_eq_true_iff.mp h
    exact decode_movToSeg he (of_decide_eq_true hr)
  | seto e | setno e | setb e | setae e | sete e | setne e | setbe e | seta e | sets e | setns e | setp e | setnp e | setl e
  | setge e | setle e | setg e => exact decode_setcc h _
  -- memory
  | lea os g ea =>
    obtain ⟨hosea, has⟩ := Bool.and_eq_true_iff.mp h
    obtain ⟨rfl, hea⟩ := osOk_and hosea
    exact decode_lea g hea (of_decide_eq_true has)
  | les os g x =>
    obtain ⟨rfl, hx⟩ := osOk_and h
    exact decode_farLoad hx g [0xC4] (sub := decodeC0 _ _ p 0xC4) (fun bs => rfl) fun m bs h3 => by
      simp [decodeC0, take8, badModRM1, h3]
  | lds os g x =>
    obtain ⟨rfl, hx⟩ := osOk_and h
    exact decode_farLoad hx g [0xC5] (sub := decodeC0 _ _ p 0xC5) (fun bs => rfl) fun m bs h3 => by
      simp [decodeC0, take8, badModRM1, h3]
  | lss os g x =>
    obtain ⟨rfl, hx⟩ := osOk_and h
    exact decode_farLoad hx g [0x0F, 0xB2] (sub := decodeFarLoad _ _ p 0xB2) (fun bs => rfl) fun m bs h3 => by
      simp [decodeFarLoad, take8, badModRM2, h3]
  | lfs os g x =>
    obtain ⟨rfl, hx⟩ := osOk_and h
    exact decode_farLoad hx g [0x0F, 0xB4] (sub := decodeFarLoad _ _ p 0xB4) (fun bs => rfl) fun m bs h3 => by
      simp [decodeFarLoad, take8, badModRM2, h3]
  | lgs os g x =>
    obtain ⟨rfl, hx⟩ := osOk_and h
    exact decode_farLoad hx g [0x0F, 0xB5] (sub := decodeFarLoad _ _ p 0xB5) (fun bs => rfl) fun m bs h3 => by
      simp [decodeFarLoad, take8, badModRM2, h3]
  | callFarInd os x | jmpFarInd os x =>
    obtain ⟨rfl, hx⟩ := osOk_and h
    exact decode_group5_mem hx (by decide) fun m bs hm h3 => by simp [decodeGroup45, take8, badModRM1, hm, h3]
  | sgdt os x | sidt os x | lgdt os x | lidt os x =>
    obtain ⟨rfl, hx⟩ := osOk_and h
    exact decode_group7_mem hx (by decide) fun m bs hm h3 => by simp [decodeGroup7, take8, badModRM2, hm, h3]
  | movAccMoffs w x | movMoffsAcc w x =>
    obtain ⟨hw, hx⟩ := Bool.and_eq_true_iff.mp h
    exact decode_moffs hw hx (fun bs => rfl) fun bs => rfl
  -- control registers
  | movFromCr g c | movToCr c g => cases c <;> cases g <;> rfl
  -- immediates
  | pushImm os v =>
    obtain ⟨rfl, hv⟩ := osOk_and h
    exact decode_read (f := .pushImm _) (takeImm_immBytes rest hv) rfl
  | retImm os v =>
    obtain rfl := of_decide_eq_true h
    exact decode_read (f := .retImm _) (take16_bytes16 rest v) rfl
  | retfImm os v =>
    obtain rfl := of_decide_eq_true h
    exact decode_read (f := .retfImm _) (take16_bytes16 rest v) rfl
  | enter os alloc level =>
    obtain rfl := of_decide_eq_true h
    exact decode_read_read (f := .enter _) (take16_bytes16 (level :: rest) alloc) (take := take8) rfl rfl
  | inImm w n | inDx w | outImm w n | outDx w => apply decode_opBit h <;> rfl
  -- relative targets and far pointers
  | jo os t | jno os t | jb os t | jae os t | je os t | jne os t | jbe os t | ja os t | js os t | jns os t | jp os t | jnp os t
  | jl os t | jge os t | jle os t | jg os t =>
    obtain ⟨rfl, ht⟩ := osOk_and h
    exact decode_jcc _ ht
  | jmpRel os t =>
    obtain ⟨rfl, ht⟩ := osOk_and h
    exact decode_jmpRel ht
  | callRel os d =>
    obtain ⟨rfl, hd⟩ := osOk_and h
    exact decode_read (f := .callRel _) (takeJz_sizeBytes rest hd) rfl
  | jmpFar os off sel | callFar os off sel =>
    obtain ⟨rfl, hoff⟩ := osOk_and h
    exact decode_far hoff fun bs => rfl
  | jcxz os as d | loop os as d | loope os as d | loopne os as d =>
    obtain ⟨rfl, rfl⟩ := of_decide_and h
    rfl
  -- strings
  | xlat as r | stosb as r | insb as r | scasb as r =>
    obtain ⟨rfl, rfl⟩ := of_decide_and h
    rfl
  | movsb as r rep | lodsb as r rep | outsb as r rep | cmpsb as r rep | stosw os as rep | insw os as rep | scasw os as rep =>
    obtain ⟨rfl, rfl, rfl⟩ := of_decide_and₃ h
    rfl
  | movsw os as r rep | lodsw os as r rep | outsw os as r rep | cmpsw os as r rep =>
    obtain ⟨rfl, rfl, rfl, rfl⟩ := of_decide_and₄ h
    rfl
  -- invalid encodings
  | invalid c => exact decode_badCode csz p rest h
  | x87Escape b => exact decode_of_isX87 csz p rest h

end

/-- Settles O2, by the shapes of encodings. -/
theorem encodeDecodeRoundTrip : Obligations.EncodeDecodeRoundTrip := fun _ _ _ _ h => decode_encode h

/-- Settles O1: the decoder computes on each word. -/
theorem decodeSpecWords : Obligations.DecodeSpecWords :=
  ⟨rfl, rfl, rfl, rfl, rfl, rfl, rfl, rfl, rfl, rfl, rfl, rfl, rfl, rfl, rfl⟩

end Sys2Proof
end

section
/-! SUPPORT. What the decoder gives, by a rule for each way in which it reads: `Reads P bs x` says of the answer `x` of a reader at
the bytes `bs` that its value has the property P, and that it has read nothing but bytes of `bs`, in order (R201). The lemma about
each opcode map follows the map branch by branch. -/

namespace Sys2Proof

/-! ## Readers -/

/-- Where a reader at `bs` answers, its value has a property and the bytes it leaves are the last of `bs` (R201). -/
def Reads {α : Type} (P : α → Prop) (bs : List Byte) (x : Option (α × List Byte)) : Prop :=
  ∀ a r, x = some (a, r) → P a ∧ r <:+ bs

namespace Reads

section
variable {α β : Type} {P : α → Prop} {Q : β → Prop} {bs : List Byte} {x : Option (α × List Byte)}

theorem none : Reads P bs none := fun _ _ h => nomatch h

theorem pure {a : α} (h : P a) : Reads P bs (some (a, bs)) := by
  rintro _ _ ⟨⟩
  exact ⟨h, List.suffix_rfl⟩

theorem cons (b : Byte) (h : Reads P bs x) : Reads P (b :: bs) x := fun a r hx =>
  ⟨(h a r hx).1, (h a r hx).2.trans (List.suffix_cons b bs)⟩

theorem imp {P' : α → Prop} (h : Reads P bs x) (himp : ∀ a, P a → P' a) : Reads P' bs x := fun a r hx =>
  ⟨himp a (h a r hx).1, (h a r hx).2⟩

theorem bind {f : α × List Byte → Option (β × List Byte)} (hx : Reads P bs x) (hf : ∀ a r, P a → Reads Q r (f (a, r))) :
    Reads Q bs (x.bind f) := by
  intro b r h
  obtain ⟨⟨a, r'⟩, ha, hb⟩ := Option.bind_eq_some_iff.mp h
  obtain ⟨hP, hr'⟩ := hx a r' ha
  obtain ⟨hQ, hr⟩ := hf a r' hP b r hb
  exact ⟨hQ, hr.trans hr'⟩

/-- A reader that packs the value of another. -/
theorem map {f : α × List Byte → β × List Byte} (hx : Reads P bs x) (hf : ∀ a r, P a → Q (f (a, r)).1 ∧ (f (a, r)).2 = r) :
    Reads Q bs (x.map f) := by
  intro b r h
  obtain ⟨⟨a, r'⟩, ha, hb⟩ := Option.map_eq_some_iff.mp h
  obtain ⟨hP, hr'⟩ := hx a r' ha
  obtain ⟨hQ, hr⟩ := hf a r' hP
  rw [hb] at hQ hr
  obtain rfl : r = r' := hr
  exact ⟨hQ, hr'⟩

section
variable {c : Prop} [Decidable c] {y : Option (α × List Byte)}

theorem dite (hx : c → Reads P bs x) (hy : ¬c → Reads P bs y) : Reads P bs (if c then x else y) := by
  split
  next h => exact hx h
  next h => exact hy h

theorem ite (hx : Reads P bs x) (hy : Reads P bs y) : Reads P bs (if c then x else y) := dite (fun _ => hx) fun _ => hy

end
end

end Reads

/-! ## Immediates and displacements (R222, R223, R233 to R236) -/

theorem setWidth_signExtend (v : BitVec 16) : (v.signExtend 32).setWidth 16 = v := by
  ext k hk
  simp [BitVec.getLsbD_signExtend, hk]
  omega

theorem immFits_setWidth (w : Width) (v : BitVec w.bits) : immFits w (v.setWidth 32) = true := by
  have hv : (v.setWidth 32).setWidth w.bits = v := by
    cases w <;> exact BitVec.setWidth_setWidth_of_le _ (by decide)
  exact decide_eq_true (congrArg _ hv)

namespace Reads

section
variable (bs : List Byte)

theorem take8 : Reads (fun _ => True) bs (take8 bs) := by
  cases bs with
  | nil => exact .none
  | cons a r => exact .cons a (.pure trivial)

theorem take16 : Reads (fun _ => True) bs (take16 bs) := by
  match bs with
  | [] | [_] => exact .none
  | a :: b :: r => exact .cons a (.cons b (.pure trivial))

theorem take32 : Reads (fun _ => True) bs (take32 bs) := by
  match bs with
  | [] | [_] | [_, _] | [_, _, _] => exact .none
  | a :: b :: c :: d :: r => exact .cons a (.cons b (.cons c (.cons d (.pure trivial))))

theorem takeImm (w : Width) : Reads (fun v => immFits w v = true) bs (takeImm w bs) := by
  cases w with
  | w8 => exact (take8 bs).map fun v _ _ => ⟨immFits_setWidth .w8 v, rfl⟩
  | w16 => exact (take16 bs).map fun v _ _ => ⟨immFits_setWidth .w16 v, rfl⟩
  | w32 => exact (take32 bs).imp fun v _ => by simp [immFits]

theorem takeImmS (w : Width) : Reads (fun v => immFits w v = true) bs (takeImmS w bs) :=
  (take8 bs).map fun _ _ _ => ⟨immFits_setWidth w _, rfl⟩

theorem takeOff (sz : Size) : Reads (fun v => offFits sz v = true) bs (takeOff sz bs) := by
  cases sz with
  | s16 => exact (take16 bs).map fun v _ _ => ⟨immFits_setWidth .w16 v, rfl⟩
  | s32 => exact (take32 bs).imp fun v _ => by simp [offFits, immFits]

theorem takeJz (os : Size) : Reads (fun v => jzFits os v = true) bs (takeJz os bs) := by
  cases os with
  | s16 => exact (take16 bs).map fun v _ _ => ⟨decide_eq_true (congrArg _ (setWidth_signExtend v)), rfl⟩
  | s32 => exact (take32 bs).imp fun v _ => by simp [jzFits]

theorem takeDisp16 (md : BitVec 2) : Reads (fun d => md ≠ 0#2 → d.present = true) bs (takeDisp16 md bs) := by
  unfold Sys2Proof.takeDisp16
  split
  next h => exact .pure fun hmd => absurd (BitVec.eq_of_toNat_eq h) hmd
  · exact (take8 bs).map fun v _ _ => ⟨fun _ => rfl, rfl⟩
  · exact (take16 bs).map fun v _ _ => ⟨fun _ => rfl, rfl⟩

theorem takeDisp32 (md : BitVec 2) : Reads (fun d => md ≠ 0#2 → d.present = true) bs (takeDisp32 md bs) := by
  unfold Sys2Proof.takeDisp32
  split
  next h => exact .pure fun hmd => absurd (BitVec.eq_of_toNat_eq h) hmd
  · exact (take8 bs).map fun v _ _ => ⟨fun _ => rfl, rfl⟩
  · exact (take32 bs).map fun v _ _ => ⟨fun _ => rfl, rfl⟩

end

end Reads

/-! ## Addresses and operands (R212, R221 to R224, R230) -/

theorem Ea.wf16 {b : BitVec 3} {d : Disp 16} (h : b = 6#3 → d.present = true) : (Ea.a16 (Base16.ofBits b) d).wf = true := by
  unfold Base16.ofBits
  split
  case h_7 hb => exact h (BitVec.eq_of_toNat_eq hb)
  all_goals rfl

theorem sibIndex_ne_esp (sib : Byte) (k : Scale) : sibIndex sib ≠ some (.esp, k) := by
  unfold sibIndex
  split
  · simp
  next h =>
    have hesp : Reg.ofBits (mid3 sib) ≠ .esp := fun hr => h (by rw [← Reg.toBits_ofBits (mid3 sib), hr]; rfl)
    simp [hesp]

/-- With mod 0 the number 5 stands for no base, so that EBP has a displacement (R223, R224). -/
theorem Disp.present_of_ebp {d : Disp 32} {md : BitVec 2} {c : BitVec 3} (hd : md ≠ 0#2 → d.present = true)
    (h : ¬(md = 0#2 ∧ c = 5#3)) {r : Reg} (hr : some (Reg.ofBits c) = some r) (hebp : r = .ebp) : d.present = true :=
  hd fun h0 => h ⟨h0, by rw [← Reg.toBits_ofBits c, (Option.some.inj hr).trans hebp]; rfl⟩

theorem Ea.wf32 {b : Option Reg} {i : Option (Reg × Scale)} {d : Disp 32} (hi : ∀ k, i ≠ some (.esp, k))
    (hb : ∀ r, b = some r → r = .ebp → d.present = true) (hn : b = none → d.isFull = true) : (Ea.a32 b i d).wf = true := by
  refine Bool.and_eq_true_iff.mpr ⟨?_, ?_⟩
  · split
    · exact absurd rfl (hi _)
    · rfl
  · split
    · exact hn rfl
    · exact hb _ rfl rfl
    · rfl

namespace Reads

section
variable (m : Byte) (bs : List Byte)

theorem decodeEa16 : Reads (fun ea => ea.wf = true ∧ ea.size = .s16) bs (decodeEa16 m bs) := by
  refine .dite (fun _ => (take16 bs).map fun v _ _ => ⟨⟨rfl, rfl⟩, rfl⟩) fun hm =>
    (takeDisp16 bs _).map fun d _ hd => ⟨⟨?_, rfl⟩, rfl⟩
  exact Ea.wf16 fun h6 => hd fun h0 => hm ⟨h0, h6⟩

theorem decodeSib (sib : Byte) : Reads (fun ea => ea.wf = true ∧ ea.size = .s32) bs (decodeSib m sib bs) := by
  refine .dite (fun _ => (take32 bs).map fun v _ _ => ⟨⟨?_, rfl⟩, rfl⟩) fun hm =>
    (takeDisp32 bs _).map fun d _ hd => ⟨⟨?_, rfl⟩, rfl⟩
  · exact Ea.wf32 (sibIndex_ne_esp sib) nofun fun _ => rfl
  · exact Ea.wf32 (sibIndex_ne_esp sib) (fun _ => Disp.present_of_ebp hd hm) nofun

theorem decodeEa32 : Reads (fun ea => ea.wf = true ∧ ea.size = .s32) bs (decodeEa32 m bs) := by
  refine .ite ?_ (.dite (fun _ => (take32 bs).map fun v _ _ => ⟨⟨rfl, rfl⟩, rfl⟩) fun hm =>
    (takeDisp32 bs _).map fun d _ hd => ⟨⟨?_, rfl⟩, rfl⟩)
  · split
    · exact .cons _ (decodeSib m _ _)
    · exact .none
  · exact Ea.wf32 nofun (fun _ => Disp.present_of_ebp hd hm) nofun

theorem decodeEa (as : Size) : Reads (fun ea => ea.wf = true ∧ ea.size = as) bs (decodeEa as m bs) := by
  cases as with
  | s16 => exact decodeEa16 m bs
  | s32 => exact decodeEa32 m bs

variable (csz : Size) (p : Prefixes)

theorem decodeMem : Reads (fun x => x.wf csz p = true) bs (decodeMem (p.as csz) p m bs) :=
  (decodeEa m bs (p.as csz)).map fun ea _ ⟨hwf, hsize⟩ => ⟨by simp [MemRef.wf, hwf, hsize], rfl⟩

theorem decodeRm : Reads (fun e => e.wf csz p = true) bs (decodeRm (p.as csz) p m bs) :=
  .ite (.pure rfl) ((decodeMem m bs csz p).map fun _ _ h => ⟨h, rfl⟩)

end

/-! ### A unit that goes on after an operand -/

section
variable {bs : List Byte} {α : Type} {Q : α → Prop}

theorem byte {f : Byte × List Byte → Option (α × List Byte)} (h : ∀ {m r}, Reads Q r (f (m, r))) :
    Reads Q bs ((Sys2Proof.take8 bs).bind f) := .bind (take8 bs) fun _ _ _ => h

theorem word {f : BitVec 16 × List Byte → Option (α × List Byte)} (h : ∀ {v r}, Reads Q r (f (v, r))) :
    Reads Q bs ((Sys2Proof.take16 bs).bind f) := .bind (take16 bs) fun _ _ _ => h

theorem imm {w : Width} {f : BitVec 32 × List Byte → Option (α × List Byte)}
    (h : ∀ {v r}, immFits w v = true → Reads Q r (f (v, r))) : Reads Q bs ((Sys2Proof.takeImm w bs).bind f) :=
  .bind (takeImm bs w) fun _ _ => h

theorem immS {w : Width} {f : BitVec 32 × List Byte → Option (α × List Byte)}
    (h : ∀ {v r}, immFits w v = true → Reads Q r (f (v, r))) : Reads Q bs ((Sys2Proof.takeImmS w bs).bind f) :=
  .bind (takeImmS bs w) fun _ _ => h

theorem off {sz : Size} {f : BitVec 32 × List Byte → Option (α × List Byte)}
    (h : ∀ {v r}, offFits sz v = true → Reads Q r (f (v, r))) : Reads Q bs ((Sys2Proof.takeOff sz bs).bind f) :=
  .bind (takeOff bs sz) fun _ _ => h

theorem jz {os : Size} {f : BitVec 32 × List Byte → Option (α × List Byte)}
    (h : ∀ {v r}, jzFits os v = true → Reads Q r (f (v, r))) : Reads Q bs ((Sys2Proof.takeJz os bs).bind f) :=
  .bind (takeJz bs os) fun _ _ => h

variable {csz : Size} {p : Prefixes} {m : Byte}

theorem ea {f : Ea × List Byte → Option (α × List Byte)}
    (h : ∀ {x r}, x.wf = true ∧ x.size = p.as csz → Reads Q r (f (x, r))) :
    Reads Q bs ((Sys2Proof.decodeEa (p.as csz) m bs).bind f) := .bind (decodeEa m bs _) fun _ _ => h

theorem mem {f : MemRef × List Byte → Option (α × List Byte)} (h : ∀ {x r}, x.wf csz p = true → Reads Q r (f (x, r))) :
    Reads Q bs ((Sys2Proof.decodeMem (p.as csz) p m bs).bind f) := .bind (decodeMem m bs csz p) fun _ _ => h

theorem rm {f : Rm × List Byte → Option (α × List Byte)} (h : ∀ {e r}, e.wf csz p = true → Reads Q r (f (e, r))) :
    Reads Q bs ((Sys2Proof.decodeRm (p.as csz) p m bs).bind f) := .bind (decodeRm m bs csz p) fun _ _ => h

end

end Reads

/-! ## What each opcode map gives -/

section
variable (csz : Size) (p : Prefixes)

theorem widthOk_os : widthOk csz p (p.os csz).width = true := by simp [widthOk]

theorem widthOk_opWidth (o : Nat) : widthOk csz p (opWidth o (p.os csz)) = true := by
  unfold opWidth
  split
  · rfl
  · exact widthOk_os csz p

theorem osOk_os : osOk csz p (p.os csz) = true := decide_eq_true rfl
theorem asOk_as : asOk csz p (p.as csz) = true := decide_eq_true rfl
theorem segOk_ds : segOk p (p.segOr .ds) = true := decide_eq_true rfl
theorem repOk_isRep : repOk p p.isRep = true := decide_eq_true rfl
theorem cmpRepOk_cmpRep : cmpRepOk p p.cmpRep = true := decide_eq_true rfl

theorem aluInstr_wf (k : Nat) (w : Width) (d : Rm) (s : Operand) : (aluInstr k w d s).wf csz p = pairOk csz p w d s := by
  unfold aluInstr
  split <;> rfl

theorem shiftInstr_wf (k : Nat) (w : Width) (d : Rm) (c : ShiftCount) :
    (shiftInstr k w d c).wf csz p = (widthOk csz p w && d.wf csz p) := by
  unfold shiftInstr
  split <;> rfl

theorem jccInstr_wf (c : Cond) (os : Size) (t : Rel) : (jccInstr c os t).wf csz p = (osOk csz p os && t.wf os) := by
  cases c <;> rfl

theorem setccInstr_wf (c : Cond) (d : Rm) : (setccInstr c d).wf csz p = d.wf csz p := by cases c <;> rfl

theorem bitInstr_wf (k : Nat) (os : Size) (d : Rm) (o : BitOff) :
    (bitInstr k os d o).wf csz p = (osOk csz p os && d.wf csz p) := by
  unfold bitInstr
  split <;> rfl

section
variable {csz p} {w : Width} (hw : widthOk csz p w = true)
include hw

theorem pairOk_reg {d : Rm} {g : Reg} (hd : d.wf csz p = true) : pairOk csz p w d (.rm (.reg g)) = true := Bool.and_intro hw hd

theorem pairOk_imm {d : Rm} {v : BitVec 32} (hd : d.wf csz p = true) (hv : immFits w v = true) : pairOk csz p w d (.imm v) = true :=
  Bool.and_intro (Bool.and_intro hw hd) hv

theorem pairOk_rm {g : Reg} {e : Rm} (he : e.wf csz p = true) : pairOk csz p w (.reg g) (.rm e) = true := by
  cases e with
  | reg r => exact pairOk_reg hw rfl
  | mem x => exact Bool.and_intro (Bool.and_intro hw he) rfl

end

/-- The invalid forms of 8E keep CS from being loaded by MOV (R261). -/
theorem movToSeg_ne_cs {b m : Byte} (hb : b.toNat = 0x8E) (hgood : ¬badModRM1 b m = true) :
    (SegReg.ofBits (mid3 m)).getD .es ≠ .cs := by
  obtain rfl : b = 0x8E := BitVec.eq_of_toNat_eq hb
  revert m
  decide

open Bool (and_intro)

variable (b : Byte) (bs : List Byte)

theorem decode00_reads : Reads (fun i => i.wf csz p = true) bs (decode00 (p.os csz) (p.as csz) p b bs) :=
  have hos := osOk_os csz p
  have hw := widthOk_opWidth csz p b.toNat
  .ite (.byte <| .rm fun he => .pure <| (aluInstr_wf ..).trans (pairOk_reg hw he)) <|
  .ite (.byte <| .rm fun he => .pure <| (aluInstr_wf ..).trans (pairOk_rm hw he)) <|
  .ite (.imm fun hv => .pure <| (aluInstr_wf ..).trans (pairOk_imm hw rfl hv)) <|
  .ite (.pure hos) <| .ite (.pure hos) <| .ite (.pure hos) <| .ite (.pure hos) <| .ite (.pure hos) <| .ite (.pure hos) <|
  .ite (.pure hos) <| .ite (.pure rfl) <| .ite (.pure rfl) <| .ite (.pure rfl) (.pure rfl)

theorem decode40_reads : Reads (fun i => i.wf csz p = true) bs (decode40 (p.os csz) (p.as csz) p b bs) :=
  have hos := osOk_os csz p
  have hseg := segOk_ds p
  have hrep := repOk_isRep p
  have has := asOk_as csz p
  have hosas := and_intro hos has
  have hw := widthOk_os csz p
  .ite (.pure (and_intro hw rfl)) <| .ite (.pure (and_intro hw rfl)) <| .ite (.pure (and_intro hos rfl)) <|
  .ite (.pure hos) <| .ite (.pure hos) <| .ite (.pure hos) <|
  .ite (.imm fun hv => .pure (and_intro hos hv)) <|
  .ite (.byte <| .rm fun he => .imm fun hv => .pure (and_intro (and_intro hos he) hv)) <|
  .ite (.immS fun hv => .pure (and_intro hos hv)) <|
  .ite (.byte <| .rm fun he => .immS fun hv => .pure (and_intro (and_intro hos he) hv)) <|
  .ite (.pure (and_intro has hrep)) <|
  .ite (.pure (and_intro hosas hrep)) <|
  .ite (.pure (and_intro (and_intro has hseg) hrep)) <|
  .ite (.pure (and_intro (and_intro hosas hseg) hrep)) <|
  .byte <| .pure <| (jccInstr_wf ..).trans (and_intro hos rfl)

theorem decode80_reads : Reads (fun i => i.wf csz p = true) bs (decode80 (p.os csz) (p.as csz) p b bs) :=
  have hos := osOk_os csz p
  have hseg := segOk_ds p
  have hrep := repOk_isRep p
  have hcmp := cmpRepOk_cmpRep p
  have has := asOk_as csz p
  have hw := widthOk_opWidth csz p b.toNat
  have hosas := and_intro hos has
  have hsrc := and_intro has hseg
  have hsrcs := and_intro hosas hseg
  .ite (.byte <| .rm fun he => .ite (.immS fun hv => .pure <| (aluInstr_wf ..).trans (pairOk_imm hw he hv))
    (.imm fun hv => .pure <| (aluInstr_wf ..).trans (pairOk_imm hw he hv))) <|
  .ite (.byte <| .rm fun he => .pure (and_intro (and_intro hw he) rfl)) <|
  .ite (.byte <| .rm fun he => .pure (and_intro hw he)) <|
  .ite (.byte <| .rm fun he => .pure (and_intro hw he)) <|
  .ite (.byte <| .rm fun he => .pure <| pairOk_rm hw he) <|
  .ite (.byte <| .dite (fun hbad => .pure hbad) fun hgood =>
    .ite (.rm fun he => .pure (and_intro hos he)) <|
    .ite (.ea fun ⟨hea, hsz⟩ => .pure (and_intro (and_intro hos hea) (decide_eq_true hsz))) <|
    .dite (fun h8E => .rm fun he => .pure (and_intro (decide_eq_true (movToSeg_ne_cs h8E hgood)) he)) fun _ =>
    .rm fun he => .pure (and_intro hos he)) <|
  .ite (.pure rfl) <|
  .ite (.pure (and_intro (widthOk_os csz p) rfl)) <|
  .ite (.pure hos) <| .ite (.pure hos) <|
  .ite (.off fun hv => .word <| .pure (and_intro hos hv)) <|
  .ite (.pure rfl) <| .ite (.pure hos) <|
  .ite (by cases hsz : p.os csz <;> exact .pure (decide_eq_true hsz.symm)) <| .ite (.pure rfl) <| .ite (.pure rfl) <|
  .ite (.off fun hv => .pure (and_intro hw (and_intro hsrc hv))) <|
  .ite (.off fun hv => .pure (and_intro hw (and_intro hsrc hv))) <|
  .ite (.pure (and_intro hsrc hrep)) <| .ite (.pure (and_intro hsrcs hrep)) <|
  .ite (.pure (and_intro hsrc hcmp)) <| .ite (.pure (and_intro hsrcs hcmp)) <|
  .ite (.imm fun hv => .pure (and_intro (and_intro (and_intro hw rfl) hv) rfl)) <|
  .ite (.pure (and_intro has hrep)) <| .ite (.pure (and_intro hosas hrep)) <|
  .ite (.pure (and_intro hsrc hrep)) <| .ite (.pure (and_intro hsrcs hrep)) <|
  .ite (.pure (and_intro has hcmp)) <| .ite (.pure (and_intro hosas hcmp)) <|
  .ite (.imm fun hv => .pure (and_intro (and_intro rfl rfl) hv)) <|
  .imm fun hv => .pure (and_intro (and_intro (widthOk_os csz p) rfl) hv)

theorem decodeGroup3_reads {w : Width} (hw : widthOk csz p w = true) :
    Reads (fun i => i.wf csz p = true) bs (decodeGroup3 (p.as csz) p w bs) :=
  .byte <| .rm fun he => by
    have hwe := and_intro hw he
    dsimp only
    split
    case h_7 => exact .imm fun hv => .pure (and_intro (and_intro hwe hv) rfl)
    all_goals exact .pure hwe

theorem decodeGroup45_reads : Reads (fun i => i.wf csz p = true) bs (decodeGroup45 (p.os csz) (p.as csz) p b bs) :=
  have hos := osOk_os csz p
  have hw := widthOk_opWidth csz p b.toNat
  .byte <| .dite (fun hbad => .pure hbad) fun _ => by
    split
    case h_1 | h_2 => exact .rm fun he => .pure (and_intro hw he)
    case h_4 | h_6 => exact .mem fun hx => .pure (and_intro hos hx)
    all_goals exact .rm fun he => .pure (and_intro hos he)

theorem decodeC0_reads : Reads (fun i => i.wf csz p = true) bs (decodeC0 (p.os csz) (p.as csz) p b bs) :=
  have hos := osOk_os csz p
  have has := asOk_as csz p
  have hosas := and_intro hos has
  have hw := widthOk_opWidth csz p b.toNat
  .ite (.byte <| .rm fun he => .byte <| .pure <| (shiftInstr_wf ..).trans (and_intro hw he)) <|
  .ite (.word <| .pure hos) <| .ite (.pure hos) <|
  .ite (.byte <| .dite (fun hbad => .pure hbad) fun _ => .mem fun hx => .pure (by split <;> exact and_intro hos hx)) <|
  .ite (.byte <| .dite (fun hbad => .pure hbad) fun _ => .rm fun he => .imm fun hv => .pure (and_intro (and_intro hw he) hv)) <|
  .ite (.word <| .byte <| .pure hos) <| .ite (.pure hos) <| .ite (.word <| .pure hos) <| .ite (.pure hos) <|
  .ite (.pure rfl) <| .ite (.byte <| .pure rfl) <| .ite (.pure rfl) <| .ite (.pure hos) <|
  .ite (.byte <| .rm fun he => .pure <| (shiftInstr_wf ..).trans (and_intro hw he)) <|
  .ite (.byte <| .rm fun he => .pure <| (shiftInstr_wf ..).trans (and_intro hw he)) <|
  .ite (.byte <| .pure rfl) <| .ite (.byte <| .pure rfl) <| .ite (.pure (and_intro has (segOk_ds p))) <|
  .ite (.byte <| .pure hosas) <| .ite (.byte <| .pure hosas) <| .ite (.byte <| .pure hosas) <| .ite (.byte <| .pure hosas) <|
  .ite (.byte <| .pure hw) <| .ite (.byte <| .pure hw) <|
  .ite (.jz fun hd => .pure (and_intro hos hd)) <| .ite (.jz fun hd => .pure (and_intro hos hd)) <|
  .ite (.off fun hv => .word <| .pure (and_intro hos hv)) <| .ite (.byte <| .pure (and_intro hos rfl)) <|
  .ite (.pure hw) <| .ite (.pure hw) <| .ite (.pure rfl) <| .ite (.pure rfl) <| .ite (decodeGroup3_reads csz p bs hw) <|
  .ite (.pure rfl) <| .ite (.pure rfl) <| .ite (.pure rfl) <| .ite (.pure rfl) <| .ite (.pure rfl) <| .ite (.pure rfl) <|
  decodeGroup45_reads csz p b bs

theorem decodeGroup7_reads : Reads (fun i => i.wf csz p = true) bs (decodeGroup7 (p.os csz) (p.as csz) p b bs) :=
  have hos := osOk_os csz p
  .byte <| .dite (fun hbad => .pure hbad) fun _ => by
    split
    case h_5 => exact .rm fun he => .pure (and_intro hos he)
    case h_6 => exact .rm fun he => .pure he
    all_goals exact .mem fun hx => .pure (and_intro hos hx)

theorem decodeFarLoad_reads : Reads (fun i => i.wf csz p = true) bs (decodeFarLoad (p.os csz) (p.as csz) p b bs) :=
  .byte <| .dite (fun hbad => .pure hbad) fun _ => .mem fun hx => .pure (by
    split
    · exact and_intro (osOk_os csz p) hx
    · split <;> exact and_intro (osOk_os csz p) hx)

theorem decode0F_reads : Reads (fun i => i.wf csz p = true) bs (decode0F (p.os csz) (p.as csz) p b bs) :=
  have hos := osOk_os csz p
  .dite (fun hbad => .pure hbad) fun _ =>
  .ite (decodeGroup7_reads csz p b bs) <| .ite (.pure rfl) <|
  .ite (.byte <| .dite (fun hbad => .pure hbad) fun _ => .pure (by split <;> rfl)) <|
  .ite (.jz fun hd => .pure <| (jccInstr_wf ..).trans (and_intro hos hd)) <|
  .ite (.byte <| .rm fun he => .pure <| (setccInstr_wf ..).trans he) <|
  .ite (.pure hos) <| .ite (.pure hos) <| .ite (.pure hos) <| .ite (.pure hos) <| .ite (decodeFarLoad_reads csz p b bs) <|
  .byte <| .dite (fun hbad => .pure hbad) fun _ => .rm fun he =>
  have h := and_intro hos he
  .ite (.pure h) <| .ite (.byte <| .pure (and_intro h rfl)) <| .ite (.pure (and_intro h rfl)) <| .ite (.pure h) <|
  .ite (.byte <| .pure (and_intro h rfl)) <| .ite (.pure (and_intro h rfl)) <| .ite (.pure h) <| .ite (.pure h) <|
  .ite (.pure h) <| .ite (.pure h) <| .ite (.byte <| .pure <| (bitInstr_wf ..).trans h) <| .ite (.pure h) <|
  .ite (.pure h) <| .ite (.pure h) <| .ite (.pure h) (.pure h)

theorem decodeOne_reads : Reads (fun i => i.wf csz p = true) bs (decodeOne (p.os csz) (p.as csz) p b bs) :=
  .dite (fun hbad => .pure hbad) fun _ => .dite (fun h87 => .pure h87) fun _ =>
  .ite (decode00_reads csz p b bs) <| .ite (decode40_reads csz p b bs) <| .ite (decode80_reads csz p b bs)
    (decodeC0_reads csz p b bs)

theorem prefixOf_wf {i : Instr} (h : prefixOf b = some i) : i.wf csz p = true := by
  unfold prefixOf at h
  split at h <;> cases h <;> rfl

theorem decode_reads : Reads (fun i => i.wf csz p = true) bs (decode csz p (b :: bs)) := by
  simp only [decode]
  split
  next i h => exact .pure (prefixOf_wf csz p b h)
  · split
    · split
      · exact .none
      · exact .cons _ (decode0F_reads csz p _ _)
    · exact decodeOne_reads csz p b bs

end

/-- Settles O3: an instruction is read from its first byte on. -/
theorem decodedIsWellFormed : Obligations.DecodedIsWellFormed := by
  intro csz p bs i rest h
  cases bs with
  | nil => cases h
  | cons b bs =>
    obtain ⟨hwf, used, hused⟩ := decode_reads csz p b bs i rest h
    exact ⟨hwf, b :: used, List.cons_ne_nil _ _, congrArg _ hused.symm⟩

end Sys2Proof
end

section
/-! SUPPORT. Whole cycles: the units before an instruction, which only record themselves (R210 to R217), the bytes that a cycle
fetches (R201), and how a cycle ends where they are not enough or make an invalid encoding (R202, R206, R260 to R262). -/

namespace Sys2Proof.Machine

/-! ## The bytes of R210 -/

/-- Such a unit records itself, is read whatever came before it and follows it, and is one byte. -/
theorem recorded_unit {i : Instr} (h : i.isPrefix = true) :
    (∀ s, exec i s = .next (s.setCyc { s.cyc with pfx := s.cyc.pfx.after i }))
      ∧ (∀ csz p bs, decode csz p (encode i ++ bs) = some (i, bs)) ∧ (encode i).length = 1 := by
  unfold Instr.isPrefix at h
  split at h
  case h_12 => cases h
  all_goals exact ⟨fun _ => rfl, fun _ _ _ => rfl, rfl⟩

theorem State.codeSize_eq_s32 (s : State) : s.codeSize = .s32 ↔ s.mode = .prot ∧ s.segs.cs.desc.is32 = true := by
  unfold State.codeSize
  cases s.mode with
  | real => simp
  | prot => cases s.segs.cs.desc.is32 <;> simp

theorem Size.flip_bits (d : Size) : d.flip.width.bits = 48 - d.width.bits := by cases d <;> rfl

/-- Settles O10: each of these bytes is one update of the transient state, and a size present is the other one. -/
theorem prefixesRecorded : Obligations.PrefixesRecorded := by
  refine ⟨fun i s h => (recorded_unit h).1 s, State.codeSize_eq_s32, fun d p => ⟨?_, ?_⟩⟩
  · unfold Prefixes.os
    cases p.opSize <;> simp [Size.flip_bits]
  · unfold Prefixes.as
    cases p.addrSize <;> simp [Size.flip_bits]

/-! ## The units before the instruction (R210, R211) -/

section
variable {ps : List Instr} (hps : ∀ j ∈ ps, j.isPrefix = true)
include hps

theorem encodePrefixes_length : (ps.flatMap encode).length = ps.length := by
  induction ps with
  | nil => rfl
  | cons i ps ih =>
    obtain ⟨hi, hrest⟩ := List.forall_mem_cons.mp hps
    obtain ⟨-, -, hone⟩ := recorded_unit hi
    rw [List.flatMap_cons, List.length_append, hone, ih hrest, List.length_cons, Nat.add_comm]

/-- Units of R210 take one byte each, add up in the transient state, and the cycle goes on. -/
theorem runUnits_prefixes (k : FaultKind) (n : Nat) (bs : List Byte) (s : State) :
    runUnits k (ps.length + n) (ps.flatMap encode ++ bs) s = runUnits k n bs
      (s.setCyc ⟨s.cyc.csz, ps.foldl Prefixes.after s.cyc.pfx, s.cyc.bytes ++ ps.flatMap encode⟩) := by
  induction ps generalizing s with
  | nil => simp [State.setCyc]
  | cons i ps ih =>
    obtain ⟨hi, hrest⟩ := List.forall_mem_cons.mp hps
    obtain ⟨hexec, hdec, -⟩ := recorded_unit hi
    rw [List.flatMap_cons, List.append_assoc, List.length_cons, Nat.add_right_comm]
    simp only [runUnits, hdec, hi, hexec]
    simp [ih hrest, State.readUnit, State.setCyc]

end

/-! ## The bytes fetched (R201, R202, R206) -/

/-- What can be fetched is fetched, in order, up to n bytes or the first fault (R201). -/
theorem State.fetchFrom_spec (s : State) (k n : Nat) :
    (s.fetchFrom k n).1.length ≤ n
      ∧ (∀ j (h : j < (s.fetchFrom k n).1.length), s.fetchByte (k + j) = .ok ((s.fetchFrom k n).1[j]'h))
      ∧ ((s.fetchFrom k n).1.length < n →
        ∃ e, s.fetchByte (k + (s.fetchFrom k n).1.length) = .error e ∧ (s.fetchFrom k n).2 = some e)
      ∧ ((s.fetchFrom k n).1.length = n → (s.fetchFrom k n).2 = none) := by
  induction n generalizing k with
  | zero => simp [State.fetchFrom]
  | succ n ih =>
    obtain ⟨hlen, hbytes, herr, hnone⟩ := ih (k + 1)
    cases hk : s.fetchByte k with
    | error e => simp [State.fetchFrom, hk]
    | ok b =>
      simp only [State.fetchFrom, hk, List.length_cons, Nat.add_lt_add_iff_right, Nat.add_right_cancel_iff, Nat.add_le_add_iff_right]
      refine ⟨hlen, fun j hj => ?_, fun h => ?_, hnone⟩
      · cases j with
        | zero => exact hk
        | succ j => simpa [Nat.add_assoc, Nat.add_comm 1] using hbytes j (Nat.lt_of_succ_lt_succ hj)
      · simpa [Nat.add_assoc, Nat.add_comm 1] using herr h

theorem State.window_length (s : State) : s.window.length ≤ 15 := (s.fetchFrom_spec 0 maxLength).1

theorem State.windowFault_of_full {s : State} (h : s.window.length = 15) : s.windowFault = .invalidOpcode s.window := by
  obtain ⟨-, -, -, hnone⟩ := s.fetchFrom_spec 0 maxLength
  simp [State.windowFault, hnone h]

theorem State.windowFault_of_short {s : State} (h : s.window.length < 15) {e : FaultKind}
    (he : s.fetchByte s.window.length = .error e) : s.windowFault = e := by
  obtain ⟨-, -, herr, -⟩ := s.fetchFrom_spec 0 maxLength
  obtain ⟨e', he', hfault⟩ := herr h
  rw [Nat.zero_add] at he'
  obtain rfl : e' = e := Except.error.inj (he'.symm.trans he)
  simp [State.windowFault, hfault]

/-- The decoder needs a byte more than there are (R202). -/
theorem runUnits_of_none {k : FaultKind} {n : Nat} {bs : List Byte} {s : State} (h : decode s.cyc.csz s.cyc.pfx bs = none) :
    runUnits k n bs s = .fault (.precise k) := by
  cases n with
  | zero => rfl
  | succ n => simp [runUnits, h]

/-! ## Whole cycles -/

/-- The bytes read are those before the rest. -/
theorem take_length_sub (l rest : List Byte) : (l ++ rest).take ((l ++ rest).length - rest.length) = l := by simp

/-- The state in which the instruction after the units `ps` is read (R211). -/
def State.recorded (s : State) (ps : List Instr) : State :=
  s.setCyc ⟨s.codeSize, ps.foldl Prefixes.after .empty, ps.flatMap encode⟩

section
variable {s : State} {ps : List Instr} {bs : List Byte}

/-- A cycle whose bytes begin with units of R210 goes on after them. -/
theorem step_of_prefixes (hd : s.NoDelivery) (hh : s.halted = false) (hps : ∀ j ∈ ps, j.isPrefix = true)
    (hw : s.window = ps.flatMap encode ++ bs) :
    ∃ n, n + ps.length = 15 ∧ step s = runUnits s.windowFault n bs (s.recorded ps) := by
  have hlen := s.window_length
  rw [hw, List.length_append, encodePrefixes_length hps] at hlen
  obtain ⟨n, hn⟩ := Nat.exists_eq_add_of_le (Nat.le_of_add_right_le hlen)
  refine ⟨n, by omega, ?_⟩
  rw [step_of_running hd hh, show maxLength = ps.length + n from hn, hw, runUnits_prefixes hps]
  rfl

end

/-- Settles O9, by the units before the instruction. -/
theorem stepRunsPrefixed : Obligations.StepRunsPrefixed := by
  intro s ps i bs rest hd hh hps hi hw hdec
  obtain ⟨-, used, hused, rfl⟩ := decodedIsWellFormed _ _ bs i rest hdec
  obtain ⟨n, hn, hstep⟩ := step_of_prefixes hd hh hps hw
  have hlen := s.window_length
  rw [hw, List.length_append, List.length_append, encodePrefixes_length hps] at hlen
  have hpos : 0 < used.length := List.length_pos_iff.mpr hused
  obtain ⟨n, rfl⟩ := Nat.exists_eq_add_one_of_ne_zero (show n ≠ 0 by omega)
  rw [hstep, runUnits_instruction (s := s.recorded ps) hdec hi, hw, ← List.append_assoc, take_length_sub, take_length_sub]
  rfl

/-- Settles O7, by what the window holds and the fault that follows it. -/
theorem oneByteMoreFaults : Obligations.OneByteMoreFaults := by
  refine ⟨fun s => ?_, fun s ps bs hd hh hps hw hdec => ?_⟩
  · obtain ⟨hlen, hbytes, herr, -⟩ := s.fetchFrom_spec 0 maxLength
    simp only [Nat.zero_add] at hbytes herr
    exact ⟨hlen, hbytes, fun h => (herr h).imp fun _ he => he.1⟩
  · obtain ⟨n, -, hstep⟩ := step_of_prefixes hd hh hps hw
    rw [hstep, runUnits_of_none (s := s.recorded ps) hdec]
    exact ⟨fun h => by rw [State.windowFault_of_full h], fun e h he => by rw [State.windowFault_of_short h he]⟩

/-! ## Invalid encodings (R260 to R262) -/

section
variable {i : Instr} (hi : ∀ s, exec i s = .fault (.precise (.invalidOpcode s.cyc.bytes)))
include hi

/-- A cycle that reads an invalid encoding reports its bytes (R703). -/
theorem step_of_invalid {s : State} (hd : s.NoDelivery) (hh : s.halted = false) {used rest : List Byte}
    (hw : s.window = used ++ rest) (hdec : decode s.codeSize .empty s.window = some (i, rest)) :
    step s = .fault (.precise (.invalidOpcode used)) := by
  have hprefix : i.isPrefix = false := by
    cases hp : i.isPrefix with
    | false => rfl
    | true => cases ((recorded_unit hp).1 s).symm.trans (hi s)
  rw [stepRunsInstruction s i rest hd hh hdec hprefix, hi, hw, take_length_sub]
  rfl

end

/-- Bytes that decode, whatever came before them and follows, to an instruction that raises InvalidOpcode in every state. -/
def InvalidCode (code : List Byte) : Prop := ∀ csz p rest, ∃ i, decode csz p (code ++ rest) = some (i, rest)
  ∧ ∀ s, exec i s = .fault (.precise (.invalidOpcode s.cyc.bytes))

section
variable {op m : Byte}

theorem invalid_of_invalidForm1 (h : InvalidForm1 op m) : InvalidCode [op, m] := fun csz p rest =>
  ⟨_, decode_of_badModRM1 csz p rest (badModRM1_of_invalidForm h), fun _ => rfl⟩

theorem invalid_of_invalidForm2 (h : InvalidForm2 op m) : InvalidCode [0x0F, op, m] := fun csz p rest =>
  ⟨_, decode_of_badModRM2 csz p rest (badModRM2_of_invalidForm h), fun _ => rfl⟩

theorem invalid_of_mem_invalidOneByte (h : op ∈ invalidOneByte) : InvalidCode [op] := fun csz p rest => by
  rcases badOp1_or_isX87_of_mem h with hbad | h87
  · exact ⟨_, decode_of_badOp1 csz p rest hbad, fun _ => rfl⟩
  · exact ⟨_, decode_of_isX87 csz p rest h87, fun _ => rfl⟩

theorem invalid_of_not_mem_twoByteOpcodes (h : op ∉ twoByteOpcodes) : InvalidCode [0x0F, op] := fun csz p rest => by
  have hbad : goodOp2 op = false := Bool.eq_false_of_not_eq_true fun hgood => h (mem_twoByteOpcodes_of_goodOp2 hgood)
  exact ⟨_, decode_of_not_goodOp2 csz p rest hbad, fun _ => rfl⟩

end

theorem InvalidCode.step {code rest : List Byte} (h : InvalidCode code) {s : State} (hd : s.NoDelivery) (hh : s.halted = false)
    (hw : s.window = code ++ rest) : step s = .fault (.precise (.invalidOpcode code)) := by
  obtain ⟨i, hdec, hi⟩ := h s.codeSize .empty rest
  exact step_of_invalid hi hd hh hw (hw ▸ hdec)

/-- Settles O4: the forms of R261 are those that the decoder refuses. -/
theorem invalidFormsFault : Obligations.InvalidFormsFault :=
  ⟨fun csz p _ _ rest h => invalid_of_invalidForm1 h csz p rest, fun csz p _ _ rest h => invalid_of_invalidForm2 h csz p rest,
    fun _ _ _ _ hd hh hw h => (invalid_of_invalidForm1 h).step hd hh hw,
    fun _ _ _ _ hd hh hw h => (invalid_of_invalidForm2 h).step hd hh hw⟩

/-- Settles O5: the opcodes of R260, and those not of R251, are those that the decoder refuses. -/
theorem invalidOpcodesFault : Obligations.InvalidOpcodesFault :=
  ⟨⟨fun _ _ => rfl, fun _ _ => rfl⟩, fun csz p _ rest h => invalid_of_mem_invalidOneByte h csz p rest,
    fun csz p _ rest h => invalid_of_not_mem_twoByteOpcodes h csz p rest,
    fun _ _ _ hd hh hw h => (invalid_of_mem_invalidOneByte h).step hd hh hw,
    fun _ _ _ hd hh hw h => (invalid_of_not_mem_twoByteOpcodes h).step hd hh hw⟩

end Sys2Proof.Machine
end

section
/-! SUPPORT. The conditions and the opcodes that carry them (R245), and the system registers: CR0 as LMSW leaves it, the base of a
table register, and the whole next states (R238, R650 to R661). -/

namespace Sys2Proof

/-! ## Conditions (R245) -/

theorem Cond.code_ofCode {cc : Nat} (h : cc < 16) : (Cond.ofCode cc).code = cc := by
  interval_cases cc <;> rfl

section
variable {os : Size} (d : BitVec os.width.bits)

/-- A sign-extended displacement encodes as its low bits (R234). -/
theorem sizeBytes_signExtend : sizeBytes os (d.signExtend 32) = sizeBytes os (d.setWidth 32) := by
  cases os with
  | s16 =>
    have hlow : (d.setWidth 32).setWidth 16 = d :=
      (BitVec.setWidth_setWidth_of_le (k := 16) d (by decide)).trans (BitVec.setWidth_eq d)
    exact congrArg bytes16 ((setWidth_signExtend d).trans hlow.symm)
  | s32 => exact congrArg bytes32 ((BitVec.signExtend_eq d).trans (BitVec.setWidth_eq d).symm)

theorem jzFits_signExtend : jzFits os (d.signExtend 32) = true := by
  refine decide_eq_true (congrArg _ ?_)
  cases os with
  | s16 => exact setWidth_signExtend d
  | s32 => exact (BitVec.setWidth_eq _).trans (BitVec.signExtend_eq d)

end

/-- Settles O32: each condition is its formula, and the opcodes are those of the encoder. -/
theorem conditionCodes : Obligations.ConditionCodes := by
  intro f
  refine ⟨?_, ?_, ?_, ?_, ?_, ?_, ?_, ?_, ?_, ?_, ?_, ?_, ?_, ?_, ?_, ?_, fun os cc hcc => ?_⟩
  case refine_17 =>
    have hcode := Cond.code_ofCode hcc
    refine ⟨fun d => ?_, ?_, fun d => ?_⟩
    · have h := decode_jcc (csz := os) (p := .empty) (rest := []) (Cond.ofCode cc) (t := .short d) rfl
      rwa [encodeJcc, hcode] at h
    · have h := decode_setcc (csz := os) (p := .empty) (rest := []) (e := .reg .ecx) rfl (Cond.ofCode cc)
      rwa [encodeSetcc, hcode] at h
    · have h := decode_jcc (csz := os) (p := .empty) (rest := []) (Cond.ofCode cc) (t := .near (d.signExtend 32))
        (jzFits_signExtend d)
      rwa [encodeJcc, hcode, List.append_nil, show Prefixes.empty.os os = os from rfl, sizeBytes_signExtend] at h
  all_goals simp [Cond.ofCode, Machine.Flags.cond]

end Sys2Proof

namespace Sys2Proof.Machine

/-! ## System registers (R650 to R661) -/

/-- LMSW as masks: bits 3:1 from the operand, bit 0 set or kept (R659). -/
theorem lmswValue_eq (cr0 : BitVec 32) (v : BitVec 16) :
    lmswValue cr0 v = (cr0 &&& 0xFFFFFFF1) ||| (v.setWidth 32 &&& 0x0000000F) := by
  refine BitVec.eq_of_getLsbD_eq fun k hk => ?_
  simp only [lmswValue, BitVec.getLsbD_append, BitVec.getLsbD_or, BitVec.getLsbD_and, BitVec.getLsbD_extractLsb',
    BitVec.getLsbD_setWidth]
  interval_cases k <;> simp

theorem tableBase_eq (os : Size) (b : BitVec 32) :
    tableBase os b = if os = .s16 then BitVec.ofNat 32 (b.toNat % 2 ^ 24) else b := by
  cases os with
  | s16 =>
    refine BitVec.eq_of_toNat_eq ((BitVec.toNat_and ..).trans ((Nat.and_two_pow_sub_one_eq_mod b.toNat 24).trans ?_))
    simp
    omega
  | s32 => rfl

/-- Settles O60: each of these is one update of the state after its reads. -/
theorem systemRegisterResults : Obligations.SystemRegisterResults := by
  refine ⟨⟨fun s c g => ⟨rfl, rfl⟩, fun s src h => ?_, fun s os m h => ?_, fun s g => ⟨?_, ?_⟩, fun s => rfl⟩, fun s os m h => ?_⟩
  · exact finish_of_ok (bind_ok.mpr ⟨_, State.readRm_of h, by rw [lmswValue_eq]⟩)
  · rw [← BitVec.setWidth_eq_extractLsb' (by decide)]
    exact finish_of_ok (bind_ok.mpr ⟨_, State.memWrite_of _ h, rfl⟩)
  · rw [← BitVec.setWidth_eq_extractLsb' (by decide)]
    rfl
  · rw [← BitVec.setWidth_eq_extractLsb' (x := s.cr.cr0) (by decide)]
    rfl
  · simp only [← tableBase_eq]
    have hread := (State.readTable_iff (os := os)).mpr ⟨h, rfl⟩
    have hwrite := fun v => (State.writeTable_iff (os := os) (v := v)).mpr ⟨h, rfl⟩
    exact ⟨finish_of_ok (bind_ok.mpr ⟨_, hread, rfl⟩), finish_of_ok (bind_ok.mpr ⟨_, hread, rfl⟩),
      finish_of_ok (bind_ok.mpr ⟨_, hwrite _, rfl⟩), finish_of_ok (bind_ok.mpr ⟨_, hwrite _, rfl⟩)⟩

end Sys2Proof.Machine
end

section
/-! SUPPORT. Data transfers: values in a wider destination, registers and memory written with what they hold, and loads through a far
pointer (R300 to R320). -/

namespace Sys2Proof.Machine

/-! ## Moves and exchanges (R300 to R302) -/

theorem setByte_self (old : BitVec 32) (h : Bool) :
    setByte old h (old.extractLsb' (if h then 8 else 0) 8) = old := by
  have append {k m n : Nat} : old.extractLsb' (k + n) m ++ old.extractLsb' k n = old.extractLsb' k (m + n) :=
    BitVec.extractLsb'_append_extractLsb'_eq_extractLsb' rfl
  cases h with
  | false => exact (append (k := 0) (m := 24) (n := 8)).trans BitVec.extractLsb'_eq_self
  | true =>
    refine (congrArg (· ++ old.extractLsb' 0 8) (append (k := 8) (m := 16) (n := 8))).trans ?_
    exact (append (k := 0) (m := 24) (n := 8)).trans BitVec.extractLsb'_eq_self

/-- A view written with what it reads is no change. -/
theorem Regs.write_read_self (r : Regs) (w : Width) (i : Reg) : r.write w i (r.read w i) = r := by
  cases w with
  | w8 => exact (congrArg (r.set _) (setByte_self _ _)).trans (r.set_get _)
  | w16 => exact (congrArg (r.set i) (setLow16_self _)).trans (r.set_get i)
  | w32 => exact r.set_get i

theorem State.setReg_reg_self (s : State) (w : Width) (i : Reg) : s.setReg w i (s.reg w i) = s :=
  congrArg s.setRegs (s.regs.write_read_self w i)

/-- XCHG reads both operands before it writes either. -/
theorem exec_xchg_of {s : State} {w : Width} {x : Rm} (g : Reg) (h : s.placeOk w (s.place x) = true) :
    exec (.xchg w x g) s
      = .next ((s.wrote w (s.place x) (s.reg w g)).setReg w g (s.valueAt w (s.place x))).advance :=
  finish_of_ok (bind_ok.mpr ⟨_, State.readRm_of h, bind_ok.mpr ⟨_, State.writeRm_of _ h, rfl⟩⟩)

/-- Settles O43: each of these is a read and a write, and a register exchanged with itself is written with what it holds. -/
theorem moveResults : Obligations.MoveResults := by
  refine ⟨fun s w dst src hdst hsrc => ?_, fun s w m => ?_, fun s w x g h => exec_xchg_of g h, fun s w g => ?_⟩
  · exact finish_of_ok (bind_ok.mpr ⟨_, State.readOp_of hsrc, bind_ok.mpr ⟨_, State.writeRm_of _ hdst, rfl⟩⟩)
  · intro lin h
    exact ⟨finish_of_ok (bind_ok.mpr ⟨_, State.memRead_of h, rfl⟩), finish_of_ok (bind_ok.mpr ⟨_, State.memWrite_of _ h, rfl⟩)⟩
  · refine (exec_xchg_of (x := .reg g) g rfl).trans ?_
    simp only [State.place, State.wrote, State.valueAt, State.setReg_reg_self]

/-! ## Extensions and conversions (R304, R305, R309 to R311) -/

theorem eq_setWidth_of_toNat {m n : Nat} (hmn : m ≤ n) {v : BitVec n} {x : BitVec m} (h : v.toNat = x.toNat) :
    v = x.setWidth n :=
  BitVec.eq_of_toNat_eq (h.trans (BitVec.toNat_setWidth_of_le hmn).symm)

theorem eq_signExtend_of_toInt {m n : Nat} (hmn : m ≤ n) {v : BitVec n} {x : BitVec m} (h : v.toInt = x.toInt) :
    v = x.signExtend n :=
  BitVec.eq_of_toInt_eq (h.trans (BitVec.toInt_signExtend_of_le hmn).symm)

/-- The word of copies of the sign of another is -1 or 0 (R311). -/
theorem eq_signFill_of_toInt {n : Nat} (hn : 0 < n) {v x : BitVec n} (h : v.toInt = if x.toInt < 0 then -1 else 0) :
    v = if x.msb then BitVec.allOnes n else 0 := by
  refine BitVec.eq_of_toInt_eq (h.trans ?_)
  by_cases hx : x.toInt < 0 <;> simp [BitVec.msb_eq_toInt, hx, BitVec.toInt_allOnes, hn]

theorem size_bits_ge_16 (os : Size) : 16 ≤ os.width.bits := by cases os <;> decide

theorem size_bits_ge_8 (os : Size) : 8 ≤ os.width.bits := Nat.le_trans (by decide) (size_bits_ge_16 os)

theorem size_bits_pos (os : Size) : 0 < os.width.bits := Nat.lt_of_lt_of_le (by decide) (size_bits_ge_16 os)

theorem size_bits_le_32 (os : Size) : os.width.bits ≤ 32 := by cases os <;> decide

/-! ## AH and FLAGS, SETcc (R312, R315) -/

/-- The low byte of FLAGS is the byte with its flags at their bits and 0 at the reserved ones. -/
theorem Flags.eq_low_of_bits {f : Flags} {v : BitVec 8} (h : ∀ k < 8, v.getLsbD k = f.bit k) : v = f.toWord.setWidth 8 := by
  refine BitVec.eq_of_getLsbD_eq fun k hk => ?_
  rw [BitVec.getLsbD_setWidth, f.toWord_getLsbD, h k hk, decide_eq_true hk, Bool.true_and]

theorem exec_setccInstr (c : Cond) (dst : Rm) (s : State) : exec (setccInstr c dst) s = finish (s.setCond c dst) := by
  cases c <;> rfl

theorem State.setCond_of {s : State} (c : Cond) {dst : Rm} (h : s.placeOk .w8 (s.place dst) = true) :
    s.setCond c dst = .ok (s.wrote .w8 (s.place dst) (if s.flags.cond c then 1 else 0)).advance :=
  bind_ok.mpr ⟨_, State.writeRm_of _ h, rfl⟩

/-- Settles O44: each result is the value that its meaning says, written at the width of the destination. -/
theorem convertResults : Obligations.ConvertResults := by
  refine ⟨⟨fun s os g ea => ?_, fun s os g src v h => ⟨fun hv => ?_, fun hv => ?_⟩,
      fun s os g src v h => ⟨fun hv => ?_, fun hv => ?_⟩, fun s v hv => ?_, fun s v hv => ?_, fun s os v hv => ?_⟩,
    fun s => ⟨fun v h7 h6 h5 h4 h3 h2 h1 h0 => ?_, rfl⟩, fun s as seg => ?_, fun s c dst h => ?_⟩
  · rw [BitVec.ofNat_toNat]
    rfl
  · rw [eq_setWidth_of_toNat (size_bits_ge_8 os) hv]
    exact finish_of_ok (bind_ok.mpr ⟨_, State.readRm_of h, rfl⟩)
  · rw [eq_signExtend_of_toInt (size_bits_ge_8 os) hv]
    exact finish_of_ok (bind_ok.mpr ⟨_, State.readRm_of h, rfl⟩)
  · rw [eq_setWidth_of_toNat (size_bits_ge_16 os) hv]
    exact finish_of_ok (bind_ok.mpr ⟨_, State.readRm_of h, rfl⟩)
  · rw [eq_signExtend_of_toInt (size_bits_ge_16 os) hv]
    exact finish_of_ok (bind_ok.mpr ⟨_, State.readRm_of h, rfl⟩)
  · rw [eq_signExtend_of_toInt (by decide) hv]
    rfl
  · rw [eq_signExtend_of_toInt (by decide) hv]
    rfl
  · rw [eq_signFill_of_toInt (size_bits_pos os) hv]
    rfl
  · rw [Flags.eq_low_of_bits (f := s.flags) (v := v) fun k hk => by interval_cases k <;> assumption]
    rfl
  · rw [BitVec.ofNat_toNat]
    intro lin h
    exact finish_of_ok (bind_ok.mpr ⟨_, State.memRead_of (w := .w8) h, rfl⟩)
  · exact (exec_setccInstr c dst s).trans (finish_of_ok (State.setCond_of c h))

/-! ## Segment registers and far pointers (R306 to R308, R316 to R320) -/

theorem State.storeWord_mem_of {s : State} (os : Size) {m : MemRef} (v : BitVec 16) (h : s.mapped (s.memAddr m) 2 = true) :
    s.storeWord os (.mem m) v = .ok (s.store (s.memAddr m) .w16 v) := State.memWrite_of (w := .w16) v h

/-- A far-pointer load writes the segment register and then the general one, from what was read before (R308). -/
theorem State.loadFar_of {s : State} {os : Size} {r : SegReg} {m : MemRef} (g : Reg) (h : s.farOk os m = true)
    (hsel : s.selectorOk r (s.farSel os m) = true) :
    s.loadFar os r g m
      = .ok ((s.setSeg r (s.segmentFor r (s.farSel os m))).setReg os.width g (s.load (s.memAddr m) os.width)) := by
  have hoff : (s.farOff os m).setWidth os.width.bits = s.load (s.memAddr m) os.width := by
    rw [State.farOff, BitVec.setWidth_setWidth_of_le _ (size_bits_le_32 os), BitVec.setWidth_eq]
  rw [← hoff]
  exact bind_ok.mpr ⟨_, State.readFar_of h, bind_ok.mpr ⟨_, State.setSelector_of hsel, rfl⟩⟩

/-- Settles O45: a move is one read or write, and the five far-pointer loads are one load each. -/
theorem segmentMoveResults : Obligations.SegmentMoveResults := by
  refine ⟨fun s os r g => ?_, fun s os r m h => ?_, fun s r src h hsel => ?_, fun s os g m h => ?_⟩
  · rw [BitVec.ofNat_toNat]
    rfl
  · exact finish_of_ok (bind_ok.mpr ⟨_, State.storeWord_mem_of os _ h, rfl⟩)
  · exact finish_of_ok (bind_ok.mpr ⟨_, State.readRm_of h, bind_ok.mpr ⟨_, State.setSelector_of hsel, rfl⟩⟩)
  · intro t
    have hload {r : SegReg} (hsel : s.selectorOk r (s.farSel os m) = true) :
        finish (s.loadFar os r g m >>= fun u => .ok u.advance) = .next (t r) :=
      finish_of_ok (bind_ok.mpr ⟨_, State.loadFar_of g h hsel, rfl⟩)
    exact ⟨hload, hload, hload, hload, hload⟩

end Sys2Proof.Machine
end

section
/-! SUPPORT. The stack: what a load answers after stores, what one push and one pop leave (R370), and the whole next state of the
pushes and pops of one operand (R371 to R376, R382 to R384). -/

namespace Sys2Proof.Machine

/-! ## Loads after stores -/

/-- A load is its bytes. -/
theorem State.load_congr {s t : State} {a b : BitVec 32} {w : Width}
    (h : ∀ k < w.bytes, t.byteAt (b + BitVec.ofNat 32 k) = s.byteAt (a + BitVec.ofNat 32 k)) : t.load b w = s.load a w := by
  apply BitVec.eq_of_toNat_eq
  rw [State.load_toNat, State.load_toNat, State.bytesValue, State.bytesValue]
  exact congrArg List.sum (List.map_congr_left fun k hk => by rw [h k (List.mem_range.mp hk)])

/-- A load depends on memory only. -/
theorem State.load_of_mem_eq {s t : State} (h : t.mem = s.mem) (lin : BitVec 32) (w : Width) : t.load lin w = s.load lin w :=
  State.load_congr fun _ _ => congrArg (fun m : Memory => m.get _) h

/-- A load of bytes that no store has reached. -/
theorem State.Stores.load_eq {l : List (BitVec 32 × Nat)} {s t : State} (h : s.Stores l t) {lin : BitVec 32} {w : Width}
    (hout : ∀ k < w.bytes, Outside (lin + BitVec.ofNat 32 k) l) : t.load lin w = s.load lin w :=
  State.load_congr fun k hk => h _ (hout k hk)

/-- The bytes of a store are the digits of its value, to base 256. -/
theorem State.bytesValue_store (s : State) (lin : BitVec 32) (w : Width) (v : BitVec w.bits) {n : Nat} (hn : n ≤ w.bytes) :
    (s.store lin w v).bytesValue lin n = v.toNat % 256 ^ n := by
  obtain ⟨-, hin, -⟩ := s.store_bytes lin w v
  induction n with
  | zero => simp [State.bytesValue_zero, Nat.mod_one]
  | succ n ih =>
    have hdigit : (v.extractLsb' (8 * n) 8).toNat = v.toNat / 256 ^ n % 256 := by
      rw [BitVec.extractLsb'_toNat, Nat.shiftRight_eq_div_pow, Nat.pow_mul]
    rw [State.bytesValue_succ, ih (Nat.le_of_succ_le hn), hin n hn, hdigit, Nat.mod_pow_succ, Nat.mul_comm]

/-- A load answers what was last stored there. -/
theorem State.load_store (s : State) (lin : BitVec 32) (w : Width) (v : BitVec w.bits) : (s.store lin w v).load lin w = v := by
  have hpow : 256 ^ w.bytes = 2 ^ w.bits := by cases w <;> rfl
  apply BitVec.eq_of_toNat_eq
  rw [State.load_toNat, State.bytesValue_store s lin w v (Nat.le_refl _), hpow, Nat.mod_eq_of_lt v.isLt]

/-! ## The stack pointer (R370) -/

theorem State.sw_eq_s16 (s : State) : s.sw = .s16 ↔ s.mode = .real := by
  unfold State.sw
  cases s.mode <;> simp

theorem State.sp_eq (s : State) :
    s.sp = match s.mode with
      | .real => (s.regs.esp.setWidth 16).setWidth 32
      | .prot => s.regs.esp := by
  unfold State.sp State.sw
  cases s.mode <;> rfl

theorem State.truncTo_sp (s : State) : truncTo s.sw s.sp = s.sp := by
  rw [← State.sp_setSp, State.setSp_sp]

/-- A write of the stack pointer depends on the registers and the mode only. -/
theorem State.setSp_regs_congr {s t : State} (hregs : t.regs = s.regs) (hmode : t.mode = s.mode) (v : BitVec 32) :
    (t.setSp v).regs = (s.setSp v).regs := by
  have hsw : t.sw = s.sw := by rw [State.sw, hmode, State.sw]
  unfold State.setSp
  rw [hsw]
  cases s.sw <;> simp only [State.setReg_regs, hregs]

/-- The bits of ESP outside SP are kept (R370). -/
theorem State.setSp_esp_high {s : State} (h : s.mode = .real) (v : BitVec 32) :
    (s.setSp v).regs.esp.extractLsb' 16 16 = s.regs.esp.extractLsb' 16 16 := by
  rw [State.setSp, s.sw_eq_s16.mpr h]
  exact BitVec.extractLsb'_append_eq_left

/-- The last of two writes of a view of a size counts. -/
theorem State.setReg_setReg_self (s : State) (n : Size) (r : Reg) (v x : BitVec n.width.bits) :
    (s.setReg n.width r v).setReg n.width r x = s.setReg n.width r x := by
  have hget (y : BitVec 32) : (s.regs.set r y).get r = y := (Regs.get_set s.regs r r y).trans (if_pos rfl)
  have hset (y z : BitVec 32) : (s.regs.set r y).set r z = s.regs.set r z := by cases r <;> rfl
  cases n with
  | s16 =>
    have hlow : setLow16 (setLow16 (s.regs.get r) v) x = setLow16 (s.regs.get r) x :=
      congrArg (· ++ x) BitVec.extractLsb'_append_eq_left
    simp only [State.setReg, State.setRegs, Regs.write, hget, hset, hlow]
  | s32 => exact congrArg s.setRegs (hset v x)

theorem truncTo_truncTo (sz : Size) (v : BitVec 32) : truncTo sz (truncTo sz v) = truncTo sz v := by
  simpa using truncTo_add sz v 0

theorem setWidth_truncTo (sz : Size) (v : BitVec 32) : (truncTo sz v).setWidth sz.width.bits = v.setWidth sz.width.bits := by
  rw [← truncTo_eq, BitVec.setWidth_setWidth_of_le _ (size_bits_le_32 sz), BitVec.setWidth_eq]

/-- The stack pointer is the view of ESP of width SW. -/
theorem State.setSp_eq_setReg (s : State) (v : BitVec 32) : s.setSp v = s.setReg s.sw.width .esp (v.setWidth s.sw.width.bits) := by
  unfold State.setSp
  cases s.sw <;> simp

/-- The last of two writes of the stack pointer counts, and only modulo 2^SW. -/
theorem State.setSp_setSp {s : State} {v x y : BitVec 32} (h : truncTo s.sw x = truncTo s.sw y) :
    (s.setSp v).setSp x = s.setSp y := by
  have hwidth : x.setWidth s.sw.width.bits = y.setWidth s.sw.width.bits := by
    rw [← setWidth_truncTo, h, setWidth_truncTo]
  rw [State.setSp_eq_setReg, State.sw_setSp, State.setSp_eq_setReg, State.setReg_setReg_self, hwidth, State.setSp_eq_setReg]

/-! ## One push and one pop (R369, R370) -/

@[simp] theorem State.pushed_sw (s : State) (n : Size) (v : BitVec n.width.bits) : (s.pushed n v).sw = s.sw := by
  simp [State.sw]

theorem State.pushed_sp (s : State) (n : Size) (v : BitVec n.width.bits) :
    (s.pushed n v).sp = truncTo s.sw (s.sp - BitVec.ofNat 32 n.width.bytes) := by
  rw [← sizeStep_eq, ← State.sp_setSp]
  simp [State.sp, State.sw, State.reg]

theorem State.pushed_stores (s : State) (n : Size) (v : BitVec n.width.bits) :
    s.Stores (s.slots n 1) (s.pushed n v) := ((State.Stores.refl _ s).setSp _).store v List.mem_cons_self

theorem State.load_pushed (s : State) (n : Size) (v : BitVec n.width.bits) : (s.pushed n v).load (s.slot n 1) n.width = v :=
  State.load_store _ _ _ v

theorem State.top_pushed (s : State) (n : Size) (v : BitVec n.width.bits) : (s.pushed n v).top = s.slot n 1 := by
  rw [State.top, State.pushed_sp, State.slot, Nat.one_mul]
  simp [State.linear]

/-- A pop answers the value that has just been pushed (R369). -/
theorem State.pop_pushed {s : State} {n : Size} (v : BitVec n.width.bits) (h : s.slotOk n 1 = true) :
    (s.pushed n v).pop n = .ok (v, (s.pushed n v).popped n) := by
  refine State.pop_iff.mpr ⟨?_, ?_, rfl⟩
  · rw [State.popOk, State.top_pushed]
    simpa [State.slotOk, State.mapped] using h
  · rw [State.popValue, State.top_pushed, State.load_pushed]

/-- A pop after a push restores the registers (R369). -/
theorem State.popped_pushed_regs (s : State) (n : Size) (v : BitVec n.width.bits) :
    ((s.pushed n v).popped n).regs = s.regs := by
  have hsp : truncTo s.sw ((s.pushed n v).sp + sizeStep n) = truncTo s.sw s.sp := by
    rw [State.pushed_sp, truncTo_add, ← sizeStep_eq, BitVec.sub_add_cancel]
  calc ((s.pushed n v).popped n).regs
      = ((s.setSp (s.sp - sizeStep n)).setSp ((s.pushed n v).sp + sizeStep n)).regs :=
        State.setSp_regs_congr (by simp) (by simp) _
    _ = s.regs := by rw [State.setSp_setSp hsp, State.setSp_sp]

theorem State.popped_sp (s : State) (n : Size) : (s.popped n).sp = truncTo s.sw (s.sp + BitVec.ofNat 32 n.width.bytes) := by
  rw [State.popped, State.sp_setSp, sizeStep_eq]

/-- Settles O46: what a push leaves, what the pop after it leaves, and what a pop leaves. -/
theorem pushPopRule : Obligations.PushPopRule := by
  refine fun s n v => ⟨s.sw_eq_s16, s.sp_eq, ?_, fun hslot => ?_, fun hpop => ?_⟩
  · rw [State.slot, Nat.one_mul]
  · refine ⟨_, State.push_of v hslot, s.pushed_sp n v, fun hm => ?_, s.load_pushed n v, s.pushed_stores n v, ?_⟩
    · rw [State.pushed_regs]
      exact State.setSp_esp_high hm _
    · exact ⟨_, State.pop_pushed v hslot, s.popped_pushed_regs n v, State.setSp_mem _ _⟩
  · exact ⟨_, State.pop_of hpop, s.popped_sp n, fun hm => State.setSp_esp_high hm _, State.setSp_mem _ _⟩

/-! ## Pushes and pops of one operand (R371 to R376, R382 to R384) -/

theorem State.pushSeg_of {s : State} {os : Size} (r : SegReg) (h : s.slotOk os 1 = true) :
    s.pushSeg os r = .ok (s.pushed os ((s.segs.get r).sel.setWidth os.width.bits)).advance :=
  bind_ok.mpr ⟨_, State.push_of _ h, rfl⟩

/-- Settles O47: each of these is one push, of a value from before it. -/
theorem pushResults : Obligations.PushResults := by
  refine fun s os hslot => ⟨fun src hsrc => ?_, fun imm => ?_, ?_, ?_⟩
  · exact finish_of_ok (bind_ok.mpr ⟨_, State.readRm_of hsrc, bind_ok.mpr ⟨_, State.push_of _ hslot, rfl⟩⟩)
  · rw [BitVec.ofNat_toNat]
    exact finish_of_ok (bind_ok.mpr ⟨_, State.push_of _ hslot, rfl⟩)
  · simp only [BitVec.ofNat_toNat]
    have hpush (r : SegReg) := finish_of_ok (State.pushSeg_of r hslot)
    exact ⟨hpush .es, hpush .cs, hpush .ss, hpush .ds, hpush .fs, hpush .gs⟩
  · exact finish_of_ok (bind_ok.mpr ⟨_, State.push_of _ hslot, rfl⟩)

theorem State.popSeg_of {s : State} {os : Size} {r : SegReg} (h : s.popOk os = true)
    (hsel : (s.popped os).selectorOk r ((s.popValue os).setWidth 16) = true) :
    s.popSeg os r
      = .ok ((s.popped os).setSeg r ((s.popped os).segmentFor r ((s.popValue os).setWidth 16))).advance :=
  bind_ok.mpr ⟨_, State.pop_of h, bind_ok.mpr ⟨_, State.setSelector_of hsel, rfl⟩⟩

theorem State.popped_flags (s : State) (n : Size) : (s.popped n).flags = s.flags := s.setSp_flags _

/-- Settles O48: each of these is one pop, and a write of its value from the state after it. -/
theorem popResults : Obligations.PopResults := by
  refine fun s os hpop => ⟨fun g => ?_, fun dst hdst => ?_, ?_, ?_, ?_⟩
  · exact finish_of_ok (bind_ok.mpr ⟨_, State.pop_of hpop, rfl⟩)
  · exact finish_of_ok (bind_ok.mpr ⟨_, State.pop_of hpop, bind_ok.mpr ⟨_, State.writeRm_of _ hdst, rfl⟩⟩)
  · simp only [BitVec.ofNat_toNat]
    have hload {r : SegReg} (hsel) := finish_of_ok (State.popSeg_of (r := r) hpop hsel)
    exact ⟨hload, hload, hload, hload, hload⟩
  · rintro rfl
    rw [← s.popped_flags]
    exact finish_of_ok (bind_ok.mpr ⟨_, State.pop_of hpop, rfl⟩)
  · rintro rfl
    rw [← s.popped_flags]
    exact finish_of_ok (bind_ok.mpr ⟨_, State.pop_of hpop, rfl⟩)

end Sys2Proof.Machine
end

section
/-! SUPPORT. Rows of pushes and of pops as one update of the state: what each slot and each register then holds. PUSHA, POPA and
ENTER are such rows (R380, R381, R385). -/

namespace Sys2Proof.Machine

/-! ## Rows of pushes (R380, R385) -/

/-- The state after pushes of a list of values, the first one first. -/
def State.pushedAll (s : State) (n : Size) (vs : List (BitVec n.width.bits)) : State := vs.foldl (fun t v => t.pushed n v) s

section
variable (s : State) (n : Size) (v : BitVec n.width.bits) (vs : List (BitVec n.width.bits))

theorem State.pushedAll_cons : s.pushedAll n (v :: vs) = (s.pushed n v).pushedAll n vs := rfl

theorem State.pushedAll_concat : s.pushedAll n (vs ++ [v]) = (s.pushedAll n vs).pushed n v := List.foldl_append

/-- What no push changes, no row of pushes changes. -/
theorem State.pushedAll_unchanged {α : Type} (f : State → α) (hf : ∀ t v, f (State.pushed t n v) = f t) :
    f (s.pushedAll n vs) = f s := by
  induction vs generalizing s with
  | nil => rfl
  | cons v vs ih => exact (ih (s.pushed n v)).trans (hf s v)

@[simp] theorem State.pushedAll_flags : (s.pushedAll n vs).flags = s.flags :=
  s.pushedAll_unchanged n vs _ fun t v => t.pushed_flags n v

@[simp] theorem State.pushedAll_sw : (s.pushedAll n vs).sw = s.sw :=
  s.pushedAll_unchanged n vs _ fun t v => t.pushed_sw n v

theorem State.pushedAll_next : (s.pushedAll n vs).next = s.next :=
  s.pushedAll_unchanged n vs _ fun t v => by simp [State.next]

/-- Each push takes the stack pointer down by one slot. -/
theorem State.pushedAll_sp : (s.pushedAll n vs).sp = truncTo s.sw (s.sp - BitVec.ofNat 32 (vs.length * n.width.bytes)) := by
  induction vs generalizing s with
  | nil =>
    rw [List.length_nil, Nat.zero_mul, BitVec.sub_zero, s.truncTo_sp]
    rfl
  | cons v vs ih =>
    rw [State.pushedAll_cons, ih, State.pushed_sw, State.pushed_sp, truncTo_sub, sub_sub, ← BitVec.ofNat_add, List.length_cons,
      Nat.succ_mul, Nat.add_comm]

theorem State.slotOk_pushedAll (k : Nat) : (s.pushedAll n vs).slotOk n k = s.slotOk n (k + vs.length) := by
  induction vs generalizing s with
  | nil => rfl
  | cons v vs ih => exact (ih (s.pushed n v)).trans (s.slotOk_pushed n v _)

/-- Pushes succeed where their slots are inside memory. -/
theorem State.pushAll_of {s : State} {n : Size} {vs : List (BitVec n.width.bits)}
    (h : ∀ k, 1 ≤ k → k ≤ vs.length → s.slotOk n k = true) : s.pushAll n vs = .ok (s.pushedAll n vs) := by
  induction vs generalizing s with
  | nil => rfl
  | cons v vs ih =>
    refine bind_ok.mpr ⟨_, State.push_of v (h 1 (Nat.le_refl 1) (Nat.succ_pos _)), ih fun k _ hk => ?_⟩
    rw [State.slotOk_pushed]
    exact h (k + 1) (Nat.succ_pos k) (Nat.succ_le_succ hk)

end

/-! ## Rows of pops (R381) -/

/-- The state after a pop into a general register; the slot of the stack pointer is discarded (R381). -/
def State.poppedInto (s : State) (n : Size) (r : Reg) : State :=
  if r = .esp then s.popped n else (s.popped n).setReg n.width r (s.popValue n)

/-- The state after pops into a list of registers, the first one first. -/
def State.poppedAll (s : State) (n : Size) (rs : List Reg) : State := rs.foldl (fun t r => t.poppedInto n r) s

/-- A write of a view of one register leaves the views of the others. -/
theorem State.reg_setReg_of_ne (s : State) (m n : Size) {q r : Reg} (v : BitVec m.width.bits) (h : q ≠ r) :
    (s.setReg m.width r v).reg n.width q = s.reg n.width q := by
  have hget := Regs.get_write_of_ne s.regs m.width r q v ((Reg.home_size m r).symm ▸ h)
  cases n <;> simp only [State.reg, Regs.read, State.setReg_regs, hget]

theorem State.reg_setSp_of_ne (s : State) (n : Size) {q : Reg} (v : BitVec 32) (h : q ≠ .esp) :
    (s.setSp v).reg n.width q = s.reg n.width q := by
  rw [State.setSp_eq_setReg]
  exact s.reg_setReg_of_ne s.sw n _ h

/-- The stack pointer is a view of ESP only. -/
theorem State.sp_setReg_of_ne (s : State) (n : Size) {r : Reg} (v : BitVec n.width.bits) (h : r ≠ .esp) :
    (s.setReg n.width r v).sp = s.sp := by
  have hreg (m : Size) := s.reg_setReg_of_ne n m v h.symm
  unfold State.sp
  rw [hreg .s16, hreg .s32]
  rfl

section
variable (s : State) (n : Size) (r : Reg)

theorem State.poppedInto_of_ne {r : Reg} (h : r ≠ .esp) :
    s.poppedInto n r = (s.popped n).setReg n.width r (s.popValue n) := if_neg h

/-- A pop into a register changes registers only. -/
theorem State.poppedInto_eq_setRegs : s.poppedInto n r = s.setRegs (s.poppedInto n r).regs := by
  unfold State.poppedInto State.popped
  rw [State.setSp_eq]
  split <;> rfl

theorem State.poppedInto_sw : (s.poppedInto n r).sw = s.sw := by
  rw [State.poppedInto_eq_setRegs]
  rfl

theorem State.poppedInto_sp : (s.poppedInto n r).sp = truncTo s.sw (s.sp + BitVec.ofNat 32 n.width.bytes) := by
  unfold State.poppedInto
  split
  · exact s.popped_sp n
  · next h => rw [State.sp_setReg_of_ne _ _ _ h, State.popped_sp]

theorem State.upSlot_poppedInto (k : Nat) : (s.poppedInto n r).upSlot n k = s.upSlot n (k + 1) := by
  have hlin (off : BitVec 32) : (s.poppedInto n r).linear .ss off = s.linear .ss off := by
    rw [State.poppedInto_eq_setRegs]
    rfl
  rw [State.upSlot, hlin, State.poppedInto_sw, State.poppedInto_sp, truncTo_add, BitVec.add_assoc, ← BitVec.ofNat_add, Nat.add_comm,
    ← Nat.succ_mul, State.upSlot]

theorem State.upSlotOk_poppedInto (k : Nat) : (s.poppedInto n r).upSlotOk n k = s.upSlotOk n (k + 1) := by
  rw [State.upSlotOk, State.upSlot_poppedInto, State.poppedInto_eq_setRegs]
  rfl

/-- The first slot upwards is the top of the stack. -/
theorem State.upSlot_zero : s.upSlot n 0 = s.top := by
  rw [State.upSlot, Nat.zero_mul, BitVec.add_zero, State.truncTo_sp, State.top]

theorem State.popOk_eq_upSlotOk : s.popOk n = s.upSlotOk n 0 := by
  rw [State.upSlotOk, State.upSlot_zero, State.popOk]

theorem State.reg_poppedInto_of_ne {q : Reg} (hr : q ≠ r) (hsp : q ≠ .esp) :
    (s.poppedInto n r).reg n.width q = s.reg n.width q := by
  have hpop : (s.popped n).reg n.width q = s.reg n.width q := s.reg_setSp_of_ne n _ hsp
  unfold State.poppedInto
  split
  · exact hpop
  · exact ((s.popped n).reg_setReg_of_ne n n _ hr).trans hpop

theorem State.reg_poppedInto_self {r : Reg} (hsp : r ≠ .esp) :
    (s.poppedInto n r).reg n.width r = s.load (s.upSlot n 0) n.width := by
  rw [State.poppedInto_of_ne s n hsp, State.reg_setReg_self, State.popValue, State.upSlot_zero]

variable (rs : List Reg)

theorem State.poppedAll_cons : s.poppedAll n (r :: rs) = (s.poppedInto n r).poppedAll n rs := rfl

/-- Pops into registers change registers only. -/
theorem State.poppedAll_eq_setRegs : s.poppedAll n rs = s.setRegs (s.poppedAll n rs).regs := by
  induction rs generalizing s with
  | nil => rfl
  | cons r rs ih =>
    have hfirst := congrArg (fun t : State => t.setRegs (s.poppedAll n (r :: rs)).regs) (s.poppedInto_eq_setRegs n r)
    exact (ih (s.poppedInto n r)).trans hfirst

/-- Each pop takes the stack pointer up by one slot. -/
theorem State.poppedAll_sp : (s.poppedAll n rs).sp = truncTo s.sw (s.sp + BitVec.ofNat 32 (rs.length * n.width.bytes)) := by
  induction rs generalizing s with
  | nil =>
    rw [List.length_nil, Nat.zero_mul, BitVec.add_zero, s.truncTo_sp]
    rfl
  | cons r rs ih =>
    rw [State.poppedAll_cons, ih, State.poppedInto_sw, State.poppedInto_sp, truncTo_add, BitVec.add_assoc, ← BitVec.ofNat_add,
      List.length_cons, Nat.succ_mul, Nat.add_comm]

theorem State.reg_poppedAll_of_notMem {q : Reg} (hr : q ∉ rs) (hsp : q ≠ .esp) :
    (s.poppedAll n rs).reg n.width q = s.reg n.width q := by
  induction rs generalizing s with
  | nil => rfl
  | cons r rs ih =>
    obtain ⟨hne, hrs⟩ := not_or.mp (List.mem_cons.not.mp hr)
    exact (ih (s.poppedInto n r) hrs).trans (s.reg_poppedInto_of_ne n r hne hsp)

/-- The register at place k of the list takes slot k upwards. -/
theorem State.reg_poppedAll {k : Nat} (hrs : rs.Nodup) (hk : rs[k]? = some r) (hsp : r ≠ .esp) :
    (s.poppedAll n rs).reg n.width r = s.load (s.upSlot n k) n.width := by
  induction rs generalizing s k with
  | nil => cases hk
  | cons q rs ih =>
    obtain ⟨hq, hrs⟩ := List.nodup_cons.mp hrs
    cases k with
    | zero =>
      obtain rfl : q = r := Option.some.inj hk
      exact (State.reg_poppedAll_of_notMem _ n rs hq hsp).trans (s.reg_poppedInto_self n hsp)
    | succ k =>
      refine (ih (s.poppedInto n q) hrs hk).trans ?_
      rw [State.upSlot_poppedInto]
      exact State.load_of_mem_eq (by rw [State.poppedInto_eq_setRegs]; rfl) _ _

end

theorem State.popAll_cons_of {s : State} {n : Size} (r : Reg) (rs : List Reg) (h : s.popOk n = true) :
    s.popAll n (r :: rs) = (s.poppedInto n r).popAll n rs := by
  rw [State.popAll, State.pop_of h, State.poppedInto]
  split <;> rfl

/-- Pops succeed where their slots are inside memory. -/
theorem State.popAll_of {s : State} {n : Size} {rs : List Reg} (h : ∀ k < rs.length, s.upSlotOk n k = true) :
    s.popAll n rs = .ok (s.poppedAll n rs) := by
  induction rs generalizing s with
  | nil => rfl
  | cons r rs ih =>
    rw [State.popAll_cons_of r rs ((s.popOk_eq_upSlotOk n).trans (h 0 (Nat.succ_pos _))), State.poppedAll_cons]
    exact ih fun k hk => (s.upSlotOk_poppedInto n r k).trans (h (k + 1) (Nat.succ_lt_succ hk))

/-- Settles O49: PUSHA is a row of eight pushes, and POPA one of eight pops into different registers. -/
theorem pushaPopaResults : Obligations.PushaPopaResults := by
  refine ⟨fun s os hslots => ⟨?_, ?_⟩, fun s os hslots => ?_⟩
  · exact finish_of_ok (bind_ok.mpr ⟨_, State.pushAll_of hslots, rfl⟩)
  · exact s.pushedAll_sp os (pushaOrder.map (s.reg os.width))
  · have hregs := s.poppedAll_eq_setRegs os pushaOrder.reverse
    have hreg {r : Reg} {k : Nat} (hk : pushaOrder.reverse[k]? = some r) (hsp : r ≠ .esp) :=
      s.reg_poppedAll os r pushaOrder.reverse (by decide) hk hsp
    refine ⟨_, finish_of_ok (bind_ok.mpr ⟨_, State.popAll_of hslots, rfl⟩), hreg rfl nofun, hreg rfl nofun, hreg rfl nofun,
      hreg rfl nofun, hreg rfl nofun, hreg rfl nofun, hreg rfl nofun, s.poppedAll_sp os pushaOrder.reverse, ?_, ?_, ?_⟩
    all_goals
      rw [hregs]
      rfl

/-! ## ENTER and LEAVE (R385, R386) -/

/-- The linear address of the j-th slot below an offset into the stack segment; `State.slot` is the case of the stack pointer. -/
def State.slotBelow (s : State) (n : Size) (off : BitVec 32) (j : Nat) : BitVec 32 :=
  s.linear .ss (truncTo s.sw (off - BitVec.ofNat 32 (j * n.width.bytes)))

/-- Bytes of different slots have different offsets: 32 slots are far fewer bytes than those at which SP wraps (R370). -/
theorem truncTo_slots_ne (sw n : Size) (sp : BitVec 32) {i j a b : Nat} (hi : i ≤ 32) (hj : j ≤ 32) (hij : i ≠ j)
    (ha : a < n.width.bytes) (hb : b < n.width.bytes) :
    truncTo sw (sp - BitVec.ofNat 32 (i * n.width.bytes)) + BitVec.ofNat 32 a
      ≠ truncTo sw (sp - BitVec.ofNat 32 (j * n.width.bytes)) + BitVec.ofNat 32 b := by
  have := sp.isLt
  rw [ne_eq, ← BitVec.toNat_inj]
  simp only [BitVec.toNat_add, truncTo_toNat, BitVec.toNat_sub, BitVec.toNat_ofNat]
  cases n <;> cases sw <;> simp only [Width.bytes, Width.bits] at ha hb ⊢ <;> omega

/-- No byte of a slot is a byte of another, within the first 32 (R370). -/
theorem State.slot_outside_slot (s : State) (n : Size) {i j : Nat} (hi : i ≤ 32) (hj : j ≤ 32) (hij : i ≠ j) :
    ∀ a < n.width.bytes, Outside (s.slot n i + BitVec.ofNat 32 a) [(s.slot n j, n.width.bytes)] := by
  have hlin : ∃ base, ∀ off, s.linear .ss off = base + off := by
    unfold State.linear
    cases s.mode <;> exact ⟨_, fun _ => rfl⟩
  obtain ⟨base, hbase⟩ := hlin
  intro a ha p hp b hb heq
  obtain rfl := List.mem_singleton.mp hp
  rw [State.slot, State.slot, hbase, hbase, BitVec.add_assoc, BitVec.add_assoc, BitVec.add_right_inj] at heq
  exact truncTo_slots_ne s.sw n s.sp hi hj hij ha hb heq

section
variable (s : State) (n : Size) (v : BitVec n.width.bits) (vs : List (BitVec n.width.bits))

theorem State.slots_succ (k : Nat) : s.slots n (k + 1) = (s.slot n 1, n.width.bytes) :: (s.pushed n v).slots n k := by
  simp [State.slots, List.range_succ_eq_map, State.slot_pushed]

theorem State.slots_pushed_subset (k : Nat) : (s.pushed n v).slots n k ⊆ s.slots n (k + 1) :=
  s.slots_succ n v k ▸ List.subset_cons_self _ _

/-- Later pushes keep away from the slot of a push. -/
theorem State.slot_outside_slots_pushed {k : Nat} (hk : k < 32) :
    ∀ a < n.width.bytes, Outside (s.slot n 1 + BitVec.ofNat 32 a) ((s.pushed n v).slots n k) := by
  intro a ha p hp
  obtain ⟨j, hj, rfl⟩ := List.mem_map.mp hp
  have hlt := List.mem_range.mp hj
  rw [State.slot_pushed]
  exact s.slot_outside_slot n (i := 1) (j := j + 1 + 1) (by decide) (by omega) (by omega) a ha _ (List.mem_singleton.mpr rfl)

theorem State.pushedAll_stores : s.Stores (s.slots n vs.length) (s.pushedAll n vs) := by
  induction vs generalizing s with
  | nil => exact .refl _ s
  | cons v vs ih =>
    exact ((s.pushed_stores n v).subset (s.slots_subset n (Nat.succ_pos _))).trans
      ((ih (s.pushed n v)).subset (s.slots_pushed_subset n v _))

variable {n v vs}

/-- After a row of pushes each slot holds its own value. -/
theorem State.load_pushedAll (hlen : vs.length ≤ 32) {j : Nat} (hj : vs[j]? = some v) :
    (s.pushedAll n vs).load (s.slot n (j + 1)) n.width = v := by
  induction vs generalizing s j with
  | nil => cases hj
  | cons x vs ih =>
    cases j with
    | zero =>
      obtain rfl : x = v := Option.some.inj hj
      have hout := s.slot_outside_slots_pushed n x hlen
      exact (((s.pushed n x).pushedAll_stores n vs).load_eq hout).trans (s.load_pushed n x)
    | succ j =>
      rw [← s.slot_pushed n x]
      exact ih (s.pushed n x) (Nat.le_of_succ_le hlen) hj

end

section
variable (s : State) (n : Size) (v : BitVec n.width.bits) (fp : BitVec 32)

theorem State.slotBelow_one : s.linear .ss (truncTo s.sw (fp - sizeStep n)) = s.slotBelow n fp 1 := by
  rw [State.slotBelow, sizeStep_eq, Nat.one_mul]

theorem State.slotBelow_pushed (j : Nat) : (s.pushed n v).slotBelow n fp j = s.slotBelow n fp j := by
  simp [State.slotBelow, State.linear]

/-- One step down the old frame, the slots below are the ones after the next. -/
theorem State.slotBelow_step (j : Nat) : s.slotBelow n (truncTo s.sw (fp - sizeStep n)) j = s.slotBelow n fp (j + 1) := by
  rw [State.slotBelow, truncTo_sub, sizeStep_eq, sub_sub, ← BitVec.ofNat_add, Nat.add_comm, ← Nat.succ_mul, State.slotBelow]

end

/-- The k values that ENTER copies from the old frame, each read after the pushes of the ones before it (R385). -/
def State.frameCopies (s : State) (n : Size) (fp : BitVec 32) : Nat → List (BitVec n.width.bits)
  | 0 => []
  | k + 1 =>
    let fp := truncTo s.sw (fp - sizeStep n)
    let v := s.load (s.linear .ss fp) n.width
    v :: (s.pushed n v).frameCopies n fp k

theorem State.frameCopies_length (s : State) (n : Size) (fp : BitVec 32) (k : Nat) : (s.frameCopies n fp k).length = k := by
  induction k generalizing s fp with
  | zero => rfl
  | succ k ih => exact congrArg (· + 1) (ih _ _)

/-- A copy is what the old frame held at first, unless the copies before it have been stored there. -/
theorem State.frameCopies_getElem? (s : State) (n : Size) (fp : BitVec 32) {j k : Nat} (hj : j < k)
    (hout : ∀ a < n.width.bytes, Outside (s.slotBelow n fp (j + 1) + BitVec.ofNat 32 a) (s.slots n j)) :
    (s.frameCopies n fp k)[j]? = some (s.load (s.slotBelow n fp (j + 1)) n.width) := by
  induction k generalizing s fp j with
  | zero => exact absurd hj (Nat.not_lt_zero j)
  | succ k ih =>
    cases j with
    | zero => exact congrArg (fun lin => some (s.load lin n.width)) (s.slotBelow_one n fp)
    | succ j =>
      have hstep (x : BitVec n.width.bits) :
          (s.pushed n x).slotBelow n (truncTo s.sw (fp - sizeStep n)) (j + 1) = s.slotBelow n fp (j + 1 + 1) :=
        (s.slotBelow_pushed n x _ _).trans (s.slotBelow_step n fp (j + 1))
      refine (ih (s.pushed n _) _ (Nat.lt_of_succ_lt_succ hj) fun a ha => ?_).trans (congrArg some ?_)
      · rw [hstep]
        exact (hout a ha).subset (s.slots_pushed_subset n _ j)
      · rw [hstep]
        exact (s.pushed_stores n _).load_eq fun a ha => (hout a ha).subset (s.slots_subset n (Nat.succ_pos j))

theorem State.enterLoop_of {s : State} {n : Size} {fp : BitVec 32} {k : Nat} (hslot : ∀ j, 1 ≤ j → j ≤ k → s.slotOk n j = true)
    (hold : ∀ j, 1 ≤ j → j ≤ k → s.mapped (s.slotBelow n fp j) n.width.bytes = true) :
    s.enterLoop n fp k = .ok (s.pushedAll n (s.frameCopies n fp k)) := by
  induction k generalizing s fp with
  | zero => rfl
  | succ k ih =>
    have h1 := hold 1 (Nat.le_refl 1) (Nat.succ_pos k)
    rw [← State.slotBelow_one] at h1
    refine bind_ok.mpr ⟨_, State.memRead_of h1, bind_ok.mpr ⟨_, State.push_of _ (hslot 1 (Nat.le_refl 1) (Nat.succ_pos k)),
      ih (fun j _ hj => ?_) fun j _ hj => ?_⟩⟩
    · rw [State.slotOk_pushed]
      exact hslot (j + 1) (Nat.succ_pos j) (Nat.succ_le_succ hj)
    · rw [State.slotBelow_pushed, State.slotBelow_step]
      simpa [State.mapped] using hold (j + 1) (Nat.succ_pos j) (Nat.succ_le_succ hj)

/-- The values that ENTER pushes after the first, for a level taken modulo 32: copies from the old frame, and the new frame (R385). -/
def State.levelValues (s : State) (n : Size) (fp frame : BitVec 32) : Nat → List (BitVec n.width.bits)
  | 0 => []
  | k + 1 => s.frameCopies n fp k ++ [frame.setWidth n.width.bits]

theorem State.levelValues_length (s : State) (n : Size) (fp frame : BitVec 32) (k : Nat) :
    (s.levelValues n fp frame k).length = k := by
  cases k with
  | zero => rfl
  | succ k => rw [State.levelValues, List.length_append, State.frameCopies_length, List.length_singleton]

theorem State.enterLevels_of {s : State} {n : Size} {fp : BitVec 32} (frame : BitVec 32) {k : Nat}
    (hslot : ∀ j, 1 ≤ j → j ≤ k → s.slotOk n j = true)
    (hold : ∀ j, 1 ≤ j → j < k → s.mapped (s.slotBelow n fp j) n.width.bytes = true) :
    s.enterLevels n fp frame k = .ok (s.pushedAll n (s.levelValues n fp frame k)) := by
  cases k with
  | zero => rfl
  | succ k =>
    have hloop := State.enterLoop_of (fun j h1 hj => hslot j h1 (Nat.le_succ_of_le hj)) fun j h1 hj =>
      hold j h1 (Nat.lt_succ_of_le hj)
    refine bind_ok.mpr ⟨_, hloop, (State.push_of _ ?_).trans (congrArg Except.ok (s.pushedAll_concat n _ _).symm)⟩
    rw [State.slotOk_pushedAll, State.frameCopies_length, Nat.add_comm]
    exact hslot (k + 1) (Nat.succ_pos k) (Nat.le_refl _)

/-- The end of ENTER: the frame pointer takes the frame, and the stack pointer goes down by alloc, both by SW (R385). -/
def State.enterFrame (s : State) (frame : BitVec 32) (alloc : BitVec 16) : State :=
  let t := s.setReg s.sw.width .ebp (frame.setWidth s.sw.width.bits)
  t.setSp (t.sp - alloc.setWidth 32)

section
variable (s : State) (frame : BitVec 32) (alloc : BitVec 16)

theorem State.enterFrame_eq_setRegs : s.enterFrame frame alloc = s.setRegs (s.enterFrame frame alloc).regs := by
  unfold State.enterFrame
  rw [State.setSp_eq]
  rfl

theorem State.enterFrame_sp : (s.enterFrame frame alloc).sp = truncTo s.sw (s.sp - alloc.setWidth 32) := by
  rw [State.enterFrame, State.sp_setSp, State.sp_setReg_of_ne s s.sw _ (r := .ebp) nofun]
  rfl

theorem State.enterFrame_ebp {sw : Size} (hsw : s.sw = sw) :
    ((s.enterFrame frame alloc).reg sw.width .ebp).setWidth 32 = truncTo sw frame := by
  subst hsw
  rw [State.enterFrame, State.reg_setSp_of_ne _ s.sw (q := .ebp) _ nofun, State.reg_setReg_self, truncTo_eq]

end

/-- The values that ENTER pushes: the old frame pointer, and those of its levels (R385). -/
def State.enterValues (s : State) (n : Size) (k : Nat) : List (BitVec n.width.bits) :=
  let t := s.pushed n (s.reg n.width .ebp)
  s.reg n.width .ebp :: t.levelValues n s.framePtr t.sp k

section
variable (s : State) (n : Size) (k : Nat)

theorem State.enterValues_length : (s.enterValues n k).length = k + 1 := congrArg (· + 1) (State.levelValues_length _ _ _ _ _)

theorem State.enterValues_zero : (s.enterValues n k)[0]? = some (s.reg n.width .ebp) := rfl

/-- Below a level, value j is what the old frame held at first j slots down, unless the pushes before it have stored there. -/
theorem State.enterValues_copied {j k : Nat} (hj : j + 1 < k)
    (hout : ∀ a < n.width.bytes, Outside (s.slotBelow n s.framePtr (j + 1) + BitVec.ofNat 32 a) (s.slots n (j + 1))) :
    (s.enterValues n k)[j + 1]? = some (s.load (s.slotBelow n s.framePtr (j + 1)) n.width) := by
  obtain ⟨k, rfl⟩ := Nat.exists_eq_add_one_of_ne_zero (Nat.ne_zero_of_lt hj)
  have hjk : j < k := Nat.lt_of_succ_lt_succ hj
  have hlow := State.slotBelow_pushed s n (s.reg n.width .ebp) s.framePtr (j + 1)
  have hload : (s.pushed n (s.reg n.width .ebp)).load (s.slotBelow n s.framePtr (j + 1)) n.width
      = s.load (s.slotBelow n s.framePtr (j + 1)) n.width :=
    (s.pushed_stores n _).load_eq fun a ha => (hout a ha).subset (s.slots_subset n (Nat.succ_pos j))
  refine (List.getElem?_append_left ?_).trans ?_
  · rwa [State.frameCopies_length]
  · rw [State.frameCopies_getElem? _ _ _ hjk fun a ha => ?_, hlow, hload]
    rw [hlow]
    exact (hout a ha).subset (s.slots_pushed_subset n _ j)

theorem State.enterValues_frame (hk : k ≠ 0) :
    (s.enterValues n k)[k]? = some ((s.pushed n (s.reg n.width .ebp)).sp.setWidth n.width.bits) := by
  obtain ⟨k, rfl⟩ := Nat.exists_eq_add_one_of_ne_zero hk
  refine (List.getElem?_append_right ?_).trans ?_
  · rw [State.frameCopies_length]
  · rw [State.frameCopies_length, Nat.sub_self]
    rfl

end

/-- ENTER pushes its values, and then opens the frame. -/
theorem exec_enter_of {s : State} {os : Size} (alloc : BitVec 16) (level : Byte)
    (hslot : ∀ j, 1 ≤ j → j ≤ level.toNat % 32 + 1 → s.slotOk os j = true)
    (hold : ∀ j, 1 ≤ j → j < level.toNat % 32 → s.mapped (s.slotBelow os s.framePtr j) os.width.bytes = true) :
    exec (.enter os alloc level) s
      = .next ((s.pushedAll os (s.enterValues os (level.toNat % 32))).enterFrame
          (truncTo s.sw (s.sp - BitVec.ofNat 32 os.width.bytes)) alloc).advance := by
  refine finish_of_ok (bind_ok.mpr ⟨_, State.push_of _ (hslot 1 (Nat.le_refl 1) (Nat.succ_pos _)),
    bind_ok.mpr ⟨_, State.enterLevels_of _ (fun j _ hj => ?_) fun j h1 hj => ?_, ?_⟩⟩)
  · rw [State.slotOk_pushed]
    exact hslot (j + 1) (Nat.succ_pos j) (Nat.succ_le_succ hj)
  · rw [State.slotBelow_pushed]
    simpa [State.mapped] using hold j h1 hj
  · rw [← State.pushed_sp s os (s.reg os.width .ebp)]
    rfl

/-- Settles O50: ENTER is a row of at most 32 pushes, whose slots are apart, and LEAVE is one pop at the frame pointer. -/
theorem enterLeaveResults : Obligations.EnterLeaveResults := by
  refine ⟨fun s os alloc level => ?_, fun s os => ?_⟩
  · intro k old frame copied hslot hold
    have hlen : (s.enterValues os k).length ≤ 32 := by
      rw [State.enterValues_length]
      exact Nat.mod_lt _ (by decide)
    let u := s.pushedAll os (s.enterValues os k)
    have hregs := u.enterFrame_eq_setRegs frame alloc
    have hload {j : Nat} {v : BitVec os.width.bits} (hj : (s.enterValues os k)[j]? = some v) :
        (u.enterFrame frame alloc).load (s.slot os (j + 1)) os.width = v := by
      rw [hregs]
      exact s.load_pushedAll hlen hj
    refine ⟨_, exec_enter_of alloc level hslot hold, ?_, ?_, hload (s.enterValues_zero os k), fun j h1 hj hout => ?_, fun hk => ?_,
      ?_, ?_⟩
    · exact (u.enterFrame_ebp frame alloc (s.pushedAll_sw os _)).trans (truncTo_truncTo _ _)
    · refine (u.enterFrame_sp frame alloc).trans ?_
      rw [State.pushedAll_sw, State.pushedAll_sp, truncTo_sub, State.enterValues_length]
    · obtain ⟨j, rfl⟩ := Nat.exists_eq_add_one_of_ne_zero (Nat.ne_zero_of_lt h1)
      exact hload (s.enterValues_copied os hj hout)
    · refine hload ((s.enterValues_frame os k hk).trans ?_)
      rw [BitVec.ofNat_toNat, State.pushed_sp]
    · exact (congrArg State.flags hregs).trans (s.pushedAll_flags os _)
    · exact (congrArg State.next hregs).trans (s.pushedAll_next os _)
  · exact fun h => finish_of_ok (bind_ok.mpr ⟨_, State.pop_of h, rfl⟩)

end Sys2Proof.Machine
end

section
/-! SUPPORT. FLAGS after a result: the flags of R400, R401 and R404, and what carry, overflow and adjust say of an exact sum or
difference (R402, R403). -/

namespace Sys2Proof.Machine

/-! ## Flags of a result (R400, R401, R404) -/

/-- An even number of members satisfy p exactly where the xor over the list is false. -/
theorem countP_even_iff_xor {α : Type} (p : α → Bool) (l : List α) :
    l.countP p % 2 = 0 ↔ l.foldr (fun x b => p x ^^ b) false = false := by
  induction l with
  | nil => simp
  | cons x l ih =>
    rw [List.countP_cons, List.foldr_cons]
    cases p x with
    | false => simpa using ih
    | true =>
      rw [if_pos rfl, Bool.true_xor, Bool.not_eq_false', ← Bool.not_eq_false, ← ih]
      omega

section
variable {n : Nat} (f : Flags) (r : BitVec n)

theorem parity_iff : parity r = true ↔ ((List.range 8).countP fun i => r.getLsbD i) % 2 = 0 := by
  rw [countP_even_iff_xor]
  simp [parity, List.range_succ]

theorem Flags.szp_eq :
    f.szp r = { f with sf := decide (2 ^ (n - 1) ≤ r.toNat), zf := decide (r.toNat = 0), pf := parity r } := by
  have hzero : r = 0 ↔ r.toNat = 0 := BitVec.toNat_eq
  rw [Flags.szp, BitVec.msb_eq_decide, decide_eq_decide.mpr hzero]

end

/-- Settles O29: the flags that a result defines are read off it, the others are put one by one. -/
theorem resultFlags : Obligations.ResultFlags := by
  refine ⟨fun w f r k => ⟨parity_iff r, f.szp_eq r, rfl⟩, fun f k n b => ⟨rfl, rfl, rfl, rfl, ?_⟩⟩
  unfold Flags.putOverflow
  split <;> rfl

/-! ## Sums and differences (R402, R403) -/

section
variable {n : Nat} (f : Flags) (a b : BitVec n) (c : Bool)

theorem Flags.addFlags_fst : (f.addFlags a b c).1 = a + b + BitVec.ofNat n c.toNat := by
  simp only [Flags.addFlags, BitVec.ofNat_add, BitVec.ofNat_toNat, BitVec.setWidth_eq]

theorem Flags.addFlags_toNat : (f.addFlags a b c).1.toNat = (a.toNat + b.toNat + c.toNat) % 2 ^ n := BitVec.toNat_ofNat _ _

theorem Flags.addFlags_snd :
    (f.addFlags a b c).2 = { f.szp (f.addFlags a b c).1 with
      cf := decide (2 ^ n ≤ a.toNat + b.toNat + c.toNat)
      ofl := decide (a.msb = b.msb ∧ (f.addFlags a b c).1.msb ≠ a.msb)
      af := (a ^^^ b ^^^ (f.addFlags a b c).1).getLsbD 4 } := by
  have hofl (x y z : Bool) : (x == y && z != x) = decide (x = y ∧ z ≠ x) := by decide +revert
  unfold Flags.addFlags
  simp only [hofl]

/-- The difference is the number that, with the subtrahend and the borrow added, gives back the minuend. -/
theorem Flags.subFlags_add : (f.subFlags a b c).1 + b + BitVec.ofNat n c.toNat = a := by
  simp only [Flags.subFlags]
  rw [add_right_comm, sub_add_cancel, sub_add_cancel]

theorem Flags.subFlags_toNat : ((f.subFlags a b c).1.toNat + b.toNat + c.toNat) % 2 ^ n = a.toNat := by
  conv_rhs => rw [← f.subFlags_add a b c]
  simp

theorem Flags.subFlags_snd :
    (f.subFlags a b c).2 = { f.szp (f.subFlags a b c).1 with
      cf := decide (a.toNat < b.toNat + c.toNat)
      ofl := decide (a.msb ≠ b.msb ∧ (f.subFlags a b c).1.msb ≠ a.msb)
      af := (a ^^^ b ^^^ (f.subFlags a b c).1).getLsbD 4 } := by
  have hofl (x y z : Bool) : (x != y && z != x) = decide (x ≠ y ∧ z ≠ x) := by decide +revert
  unfold Flags.subFlags
  simp only [hofl]

end

theorem ofNat_boolToNat (n : Nat) (c : Bool) : BitVec.ofNat n c.toNat = (BitVec.ofBool c).setWidth n :=
  BitVec.eq_of_toNat_eq (by simp)

/-- A bit of `x ^^^ y ^^^ (x + y + c)` is the carry into it. -/
theorem xor_xor_add_getLsbD {n i : Nat} (hi : i < n) (x y : BitVec n) (c : Bool) :
    (x ^^^ y ^^^ (x + y + BitVec.ofNat n c.toNat)).getLsbD i = true
      ↔ 2 ^ i ≤ x.toNat % 2 ^ i + y.toNat % 2 ^ i + c.toNat := by
  have hcarry : ∀ p q r : Bool, ((p ^^ q) ^^ (p ^^ (q ^^ r))) = r := by decide
  rw [ofNat_boolToNat, BitVec.getLsbD_xor, BitVec.getLsbD_xor, BitVec.getLsbD_add_add_bool hi, hcarry, BitVec.carry, decide_eq_true_iff]

/-! ### At each width, where the powers of 2 are numerals -/

section
variable (w : Width) (f : Flags) (a b : BitVec w.bits) (c : Bool)

theorem width_four_lt_bits : 4 < w.bits := by cases w <;> decide

theorem Flags.subFlags_toInt :
    ((f.subFlags a b c).1.toNat : Int) = ((a.toNat : Int) - b.toNat - c.toNat) % 2 ^ w.bits := by
  have hadd := f.subFlags_toNat a b c
  have hlt := (f.subFlags a b c).1.isLt
  cases w <;> simp only [Width.bits] at * <;> omega

theorem Flags.addFlags_af : (f.addFlags a b c).2.af = true ↔ 16 ≤ a.toNat % 16 + b.toNat % 16 + c.toNat := by
  have hsum := f.addFlags_fst a b c
  refine Iff.trans ?_ (xor_xor_add_getLsbD (width_four_lt_bits w) a b c)
  rw [← hsum]
  rfl

theorem Flags.subFlags_af : (f.subFlags a b c).2.af = true ↔ a.toNat % 16 < b.toNat % 16 + c.toNat := by
  let r := (f.subFlags a b c).1
  have hadd : (r.toNat + b.toNat + c.toNat) % 2 ^ w.bits = a.toNat := f.subFlags_toNat a b c
  have hcarry := xor_xor_add_getLsbD (width_four_lt_bits w) r b c
  rw [f.subFlags_add a b c, BitVec.xor_assoc, BitVec.xor_comm, BitVec.xor_comm b a] at hcarry
  refine Iff.trans hcarry ?_
  have hmod : (r.toNat + b.toNat + c.toNat) % 16 = a.toNat % 16 := by
    rw [← hadd, Nat.mod_mod_of_dvd]
    cases w <;> decide
  have := Bool.toNat_le c
  omega

/-- OF of a sum says that the exact signed sum does not fit (R402). -/
theorem Flags.addFlags_ofl : (f.addFlags a b c).2.ofl = true ↔
    ¬(-2 ^ (w.bits - 1) ≤ a.toInt + b.toInt + c.toNat ∧ a.toInt + b.toInt + c.toNat < 2 ^ (w.bits - 1)) := by
  have hsum := f.addFlags_toNat a b c
  have hc := Bool.toNat_le c
  have ha := a.isLt
  have hb := b.isLt
  rw [f.addFlags_snd, decide_eq_true_iff]
  simp only [BitVec.msb_eq_decide, hsum, BitVec.toInt_eq_toNat_cond, ne_eq, decide_eq_decide]
  cases w <;> simp only [Width.bits] at * <;> omega

/-- OF of a difference says that the exact signed difference does not fit (R403). -/
theorem Flags.subFlags_ofl : (f.subFlags a b c).2.ofl = true ↔
    ¬(-2 ^ (w.bits - 1) ≤ a.toInt - b.toInt - c.toNat ∧ a.toInt - b.toInt - c.toNat < 2 ^ (w.bits - 1)) := by
  have hadd := f.subFlags_toNat a b c
  have hc := Bool.toNat_le c
  have ha := a.isLt
  have hb := b.isLt
  have hr := (f.subFlags a b c).1.isLt
  rw [f.subFlags_snd, decide_eq_true_iff]
  simp only [BitVec.msb_eq_decide, BitVec.toInt_eq_toNat_cond, ne_eq, decide_eq_decide]
  cases w <;> simp only [Width.bits] at * <;> omega

end

/-- Settles O30: the flags as they are defined, with the difference as an integer modulo 2^w. -/
theorem addSubFlagsRule : Obligations.AddSubFlagsRule :=
  ⟨fun _ f a b c => ⟨f.addFlags_toNat a b c, f.addFlags_snd a b c⟩,
    fun w f a b c => ⟨f.subFlags_toInt w a b c, f.subFlags_snd a b c⟩⟩

/-- Settles O31: OF compares the signs of exact numbers, AF is a bit of a xor, which is a carry. -/
theorem overflowMeaning : Obligations.OverflowMeaning := fun w f a b c =>
  ⟨f.addFlags_ofl w a b c, f.subFlags_ofl w a b c, f.addFlags_af w a b c, f.subFlags_af w a b c⟩

end Sys2Proof.Machine
end

section
/-! SUPPORT. The shapes of the arithmetic and logic instructions: what the ones with two operands, and those with one, complete with
(R410 to R417, R460 to R464). -/

namespace Sys2Proof.Machine

/-! ## Results -/

section
variable {n : Nat} (f : Flags) (a b : BitVec n)

theorem Flags.addFlags_fst_false : (f.addFlags a b false).1 = a + b := (f.addFlags_fst a b false).trans (BitVec.add_zero _)

theorem Flags.subFlags_fst_false : (f.subFlags a b false).1 = a - b := BitVec.sub_zero _

theorem Flags.subFlags_fst_neg : (f.subFlags 0 a false).1 = -a := (f.subFlags_fst_false 0 a).trans (BitVec.zero_sub a)

end

/-! ## Shapes -/

section
variable {s : State} {w : Width} {dst : Rm} {src : Operand} (k : State → State)

/-- Two operands: the destination takes the result. -/
theorem finish_binary (f : BitVec w.bits → BitVec w.bits → BitVec w.bits × Flags) {v : BitVec w.bits}
    (hd : s.placeOk w (s.place dst) = true) (hs : s.operandOk w src = true)
    (hv : (f (s.valueAt w (s.place dst)) (s.operandValue w src)).1 = v) :
    finish (s.binary w dst src f >>= fun t => .ok (k t)) =
      .next (k ((s.wrote w (s.place dst) v).setFlags (f (s.valueAt w (s.place dst)) (s.operandValue w src)).2)) := by
  subst hv
  exact finish_of_ok (bind_ok.mpr ⟨_, bind_ok.mpr ⟨_, State.readRm_of hd, bind_ok.mpr ⟨_, State.readOp_of hs,
    bind_ok.mpr ⟨_, State.writeRm_of _ hd, rfl⟩⟩⟩, rfl⟩)

/-- Two operands, and FLAGS only. -/
theorem finish_compare (f : BitVec w.bits → BitVec w.bits → BitVec w.bits × Flags)
    (hd : s.placeOk w (s.place dst) = true) (hs : s.operandOk w src = true) :
    finish (s.compare w dst src f >>= fun t => .ok (k t)) =
      .next (k (s.setFlags (f (s.valueAt w (s.place dst)) (s.operandValue w src)).2)) :=
  finish_of_ok (bind_ok.mpr ⟨_, bind_ok.mpr ⟨_, State.readRm_of hd, bind_ok.mpr ⟨_, State.readOp_of hs, rfl⟩⟩, rfl⟩)

/-- One operand, which takes the result. -/
theorem finish_unary (f : BitVec w.bits → BitVec w.bits × Flags) {v : BitVec w.bits} (hd : s.placeOk w (s.place dst) = true)
    (hv : (f (s.valueAt w (s.place dst))).1 = v) :
    finish (s.unary w dst f >>= fun t => .ok (k t)) =
      .next (k ((s.wrote w (s.place dst) v).setFlags (f (s.valueAt w (s.place dst))).2)) := by
  subst hv
  exact finish_of_ok (bind_ok.mpr ⟨_, bind_ok.mpr ⟨_, State.readRm_of hd, bind_ok.mpr ⟨_, State.writeRm_of _ hd, rfl⟩⟩, rfl⟩)

end

/-- A write of FLAGS with what they hold is no change. -/
theorem State.setFlags_self {s : State} {f : Flags} (h : f = s.flags) : s.setFlags f = s := by
  subst h
  rfl

/-- Settles O33: seven of the nine are the shape that writes its destination, CMP and TEST the one that does not. -/
theorem twoOperandResults : Obligations.TwoOperandResults := by
  refine ⟨fun s w dst src hd hs => ?_, fun s w dst src hd hs => ?_⟩
  · exact ⟨finish_binary State.advance _ hd hs (s.flags.addFlags_fst_false _ _),
      finish_binary State.advance _ hd hs (s.flags.addFlags_fst _ _ _),
      finish_binary State.advance _ hd hs (s.flags.subFlags_fst_false _ _), finish_binary State.advance _ hd hs rfl⟩
  · exact ⟨finish_binary (fun t => t.drawn.advance) _ hd hs rfl, finish_binary (fun t => t.drawn.advance) _ hd hs rfl,
      finish_binary (fun t => t.drawn.advance) _ hd hs rfl, finish_compare State.advance _ hd hs,
      finish_compare (fun t => t.drawn.advance) _ hd hs⟩

/-- Settles O34: all four are the shape with one operand. -/
theorem unaryResults : Obligations.UnaryResults := by
  intro s w dst hd p a
  refine ⟨finish_unary State.advance _ hd (s.flags.addFlags_fst_false a 1),
    finish_unary State.advance _ hd (s.flags.subFlags_fst_false a 1), finish_unary State.advance _ hd (s.flags.subFlags_fst_neg a), ?_⟩
  have hnot : ~~~a = BitVec.allOnes w.bits ^^^ a := BitVec.not_def
  refine (finish_unary State.advance _ hd hnot).trans ?_
  rw [State.setFlags_self (State.wrote_flags _ _ _ _).symm]

end Sys2Proof.Machine
end

section
/-! SUPPORT. The double-width accumulators, and the multiply and divide instructions over them (R420 to R425). -/

namespace Sys2Proof.Machine

/-! ## AX, DX:AX and EDX:EAX -/

theorem setByte_setByte (old : BitVec 32) (hi lo : BitVec 8) :
    setByte (setByte old false lo) true hi = old.extractLsb' 16 16 ++ hi ++ lo := by
  have hhigh : (old.extractLsb' 8 24 ++ lo).extractLsb' 16 16 = old.extractLsb' 16 16 := by
    rw [BitVec.extractLsb'_append_eq_of_le (by decide)]
    ext k hk
    have hlt : 8 + k < 24 := Nat.add_lt_add_left hk 8
    simp [BitVec.getElem_extractLsb', hlt, ← Nat.add_assoc]
  have hlow : (old.extractLsb' 8 24 ++ lo).extractLsb' 0 8 = lo := BitVec.extractLsb'_append_eq_right
  exact congrArg₂ (fun (x : BitVec 16) (y : BitVec 8) => x ++ hi ++ y) hhigh hlow

section
variable (s : State)

theorem State.pair_w8 : s.pair .w8 = s.regs.eax.extractLsb' 0 16 :=
  BitVec.extractLsb'_append_extractLsb'_eq_extractLsb' (x := s.regs.eax) rfl

theorem State.setHalves_w8 (hi lo : BitVec 8) :
    s.setHalves .w8 hi lo = s.setRegs { s.regs with eax := s.regs.eax.extractLsb' 16 16 ++ hi ++ lo } := by
  rw [← setByte_setByte]
  rfl

theorem State.setHalves_w16 (hi lo : BitVec 16) :
    s.setHalves .w16 hi lo = s.setRegs
      { s.regs with eax := s.regs.eax.extractLsb' 16 16 ++ lo, edx := s.regs.edx.extractLsb' 16 16 ++ hi } := rfl

theorem State.setHalves_w32 (hi lo : BitVec 32) : s.setHalves .w32 hi lo = s.setRegs { s.regs with eax := lo, edx := hi } := rfl

theorem State.setProduct_append (w : Width) (hi lo : BitVec w.bits) : s.setProduct w (hi ++ lo) = s.setHalves w hi lo := by
  rw [State.setProduct, BitVec.extractLsb'_append_eq_left, BitVec.extractLsb'_append_eq_right]

end

/-! ## Products -/

section
variable {n : Nat} {a b hi lo : BitVec n}

theorem unsignedProduct_eq_append (h : hi.toNat * 2 ^ n + lo.toNat = a.toNat * b.toNat) : unsignedProduct a b = hi ++ lo := by
  have hval : (hi ++ lo).toNat = a.toNat * b.toNat := by rw [toNat_append_eq, Nat.add_comm, h]
  rw [unsignedProduct, ← hval, BitVec.ofNat_toNat, BitVec.setWidth_eq]

theorem toInt_append_eq (hn : 0 < n) (hi lo : BitVec n) : (hi ++ lo).toInt = hi.toInt * 2 ^ n + lo.toNat := by
  rw [BitVec.toInt_append, if_neg (by simpa using hn.ne'), mul_comm]

theorem signedProduct_eq_append (hn : 0 < n) (h : hi.toInt * 2 ^ n + lo.toNat = a.toInt * b.toInt) :
    signedProduct a b = hi ++ lo := by
  rw [signedProduct, ← h, ← toInt_append_eq hn, BitVec.ofInt_toInt]

theorem ofInt_congr {p q : Int} (h : p % 2 ^ n = q % 2 ^ n) : BitVec.ofInt n p = BitVec.ofInt n q := by
  apply BitVec.eq_of_toNat_eq
  rw [BitVec.toNat_ofInt, BitVec.toNat_ofInt, Nat.cast_pow, Nat.cast_two, h]

theorem ofInt_eq_of_emod {r : BitVec n} {p : Int} (h : (r.toInt - p) % 2 ^ n = 0) : BitVec.ofInt n p = r :=
  (ofInt_congr (Int.emod_eq_emod_iff_emod_sub_eq_zero.mpr h)).symm.trans BitVec.ofInt_toInt

theorem ofInt_high_add_low (p : Int) (lo : BitVec n) : BitVec.ofInt n (p * 2 ^ n + lo.toNat) = lo := by
  rw [ofInt_congr (q := lo.toNat) (by rw [add_comm, Int.add_mul_emod_self_right]), BitVec.ofInt_natCast, BitVec.ofNat_toNat,
    BitVec.setWidth_eq]

theorem signedOverflow_eq_of_append (h : hi.toInt * 2 ^ n + lo.toNat = a.toInt * b.toInt) :
    signedOverflow a b = decide (hi.toInt * 2 ^ n + lo.toNat ≠ lo.toInt) := by
  rw [signedOverflow, ← h, ofInt_high_add_low]

/-- A number is the value of its low n bits exactly where it fits them. -/
theorem eq_toInt_ofInt_iff (hn : 0 < n) (p : Int) : p = (BitVec.ofInt n p).toInt ↔ -2 ^ (n - 1) ≤ p ∧ p < 2 ^ (n - 1) := by
  refine ⟨fun h => ?_, fun ⟨hle, hlt⟩ => (BitVec.toInt_ofInt_eq_self hn hle hlt).symm⟩
  rw [h]
  exact ⟨BitVec.le_toInt _, BitVec.toInt_lt⟩

theorem signedOverflow_eq_not_fits (hn : 0 < n) (a b : BitVec n) :
    signedOverflow a b = decide ¬(-2 ^ (n - 1) ≤ a.toInt * b.toInt ∧ a.toInt * b.toInt < 2 ^ (n - 1)) :=
  decide_eq_decide.mpr (not_congr (eq_toInt_ofInt_iff hn _))

end

theorem width_bits_pos (w : Width) : 0 < w.bits := by cases w <;> decide

/-- The low half of a product in a register, with its flags (R423). -/
theorem State.imulInto_eq (s : State) (w : Width) (g : Reg) {x y r : BitVec w.bits}
    (hr : (r.toInt - x.toInt * y.toInt) % 2 ^ w.bits = 0) :
    s.imulInto w g x y = ((s.setReg w g r).setFlags (s.flags.mulFlags s.draws
      (decide ¬(-2 ^ (w.bits - 1) ≤ x.toInt * y.toInt ∧ x.toInt * y.toInt < 2 ^ (w.bits - 1))))).drawn := by
  rw [State.imulInto, ofInt_eq_of_emod hr, signedOverflow_eq_not_fits (width_bits_pos w)]

/-! ## The instructions, once their operand is read -/

theorem finish_readRm {s : State} {w : Width} {src : Rm} (hp : s.placeOk w (s.place src) = true)
    (f : BitVec w.bits → Except FaultKind State) :
    finish (s.readRm w src >>= f) = finish (f (s.valueAt w (s.place src))) := by
  rw [State.readRm_of hp]
  rfl

section
variable {s : State} {w : Width} {src : Rm} (hp : s.placeOk w (s.place src) = true)
include hp

theorem exec_mul_of {hi lo : BitVec w.bits} (h : unsignedProduct (s.reg w .eax) (s.valueAt w (s.place src)) = hi ++ lo) :
    exec (.mul w src) s
      = .next ((s.setHalves w hi lo).setFlags (s.flags.mulFlags s.draws (decide (hi ≠ 0)))).drawn.advance := by
  have hhigh : (unsignedProduct (s.reg w .eax) (s.valueAt w (s.place src))).extractLsb' w.bits w.bits = hi :=
    h ▸ BitVec.extractLsb'_append_eq_left
  rw [← State.setProduct_append, ← h, ← hhigh]
  exact finish_readRm hp _

theorem exec_imul_of {hi lo : BitVec w.bits} (h : signedProduct (s.reg w .eax) (s.valueAt w (s.place src)) = hi ++ lo) :
    exec (.imul w src) s
      = .next ((s.setHalves w hi lo).setFlags
        (s.flags.mulFlags s.draws (signedOverflow (s.reg w .eax) (s.valueAt w (s.place src))))).drawn.advance := by
  rw [← State.setProduct_append, ← h]
  exact finish_readRm hp _

end

/-- Settles O35: the product is the two halves put together. -/
theorem multiplyResults : Obligations.MultiplyResults := by
  refine ⟨fun s => ⟨s.setHalves_w8, s.setHalves_w16, s.setHalves_w32⟩, fun s w src hi lo hp h => ?_, fun s w src hi lo hp h => ?_,
    fun s os g src imm hp => ⟨fun r hr => ?_, fun r hr => ?_⟩⟩
  · have hhigh : hi ≠ 0 ↔ hi.toNat ≠ 0 := not_congr BitVec.toNat_eq
    rw [exec_mul_of hp (unsignedProduct_eq_append h), decide_eq_decide.mpr hhigh]
  · rw [exec_imul_of hp (signedProduct_eq_append (width_bits_pos w) h), signedOverflow_eq_of_append h]
  · exact (finish_readRm hp _).trans (congrArg (fun t : State => Host.Outcome.next t.advance) (s.imulInto_eq os.width g hr))
  · exact (finish_readRm hp _).trans (congrArg (fun t : State => Host.Outcome.next t.advance) (s.imulInto_eq os.width g hr))

/-! ## Quotients -/

/-- A quotient toward zero and its remainder are given by the division identity and the remainder's size and sign (R425). -/
theorem tdiv_tmod_eq {n d q r : Int} (hr : r.natAbs < d.natAbs) (hsign : r = 0 ∨ (r < 0 ↔ n < 0)) (h : n = q * d + r) :
    n.tdiv d = q ∧ n.tmod d = r := by
  have hd : d ≠ 0 := by omega
  rw [mul_comm, add_comm] at h
  rcases Int.lt_or_le n 0 with hn | hn
  · exact (Int.tdiv_tmod_unique' (Int.le_of_lt hn) hd).mpr ⟨h.symm, by omega, by omega⟩
  · exact (Int.tdiv_tmod_unique hn hd).mpr ⟨h.symm, by omega, by omega⟩

theorem quotientOverflow_iff (n : Nat) (q : Int) : quotientOverflow n q = true ↔ q < -2 ^ (n - 1) ∨ 2 ^ (n - 1) ≤ q := by
  rw [quotientOverflow, Bool.or_eq_true, decide_eq_true_iff, decide_eq_true_iff]

theorem quotientOverflow_toInt {n : Nat} (q : BitVec n) : quotientOverflow n q.toInt = false := by
  rw [← Bool.not_eq_true, quotientOverflow_iff]
  have hle := BitVec.le_toInt q
  have hlt := BitVec.toInt_lt (x := q)
  omega

section
variable {s : State} {w : Width} {src : Rm} (hp : s.placeOk w (s.place src) = true)
include hp

theorem exec_div_idiv_zero (hd : s.valueAt w (s.place src) = 0) :
    exec (.div w src) s = .fault (.precise .divisionError) ∧ exec (.idiv w src) s = .fault (.precise .divisionError) := by
  constructor
  all_goals
    refine (finish_readRm hp _).trans ?_
    rw [hd]
    rfl

theorem exec_div_overflow (hd : s.valueAt w (s.place src) ≠ 0)
    (hq : 2 ^ w.bits ≤ (s.pair w).toNat / (s.valueAt w (s.place src)).toNat) :
    exec (.div w src) s = .fault (.precise .divisionError) := by
  refine (finish_readRm hp _).trans ?_
  rw [if_neg hd, if_pos hq]
  rfl

theorem exec_idiv_overflow (hd : s.valueAt w (s.place src) ≠ 0)
    (hq : quotientOverflow w.bits ((s.pair w).toInt.tdiv (s.valueAt w (s.place src)).toInt) = true) :
    exec (.idiv w src) s = .fault (.precise .divisionError) := by
  refine (finish_readRm hp _).trans ?_
  rw [if_neg hd, if_pos hq]
  rfl

theorem exec_div_of {q r : BitVec w.bits} (hd : s.valueAt w (s.place src) ≠ 0)
    (hq : (s.pair w).toNat / (s.valueAt w (s.place src)).toNat = q.toNat)
    (hr : (s.pair w).toNat % (s.valueAt w (s.place src)).toNat = r.toNat) :
    exec (.div w src) s = .next ((s.setHalves w r q).setFlags (s.flags.divFlags s.draws)).drawn.advance := by
  refine (finish_readRm hp _).trans ?_
  rw [if_neg hd, hq, hr, if_neg (Nat.not_le.mpr q.isLt), BitVec.ofNat_toNat, BitVec.ofNat_toNat, BitVec.setWidth_eq, BitVec.setWidth_eq]
  rfl

theorem exec_idiv_of {q r : BitVec w.bits} (hd : s.valueAt w (s.place src) ≠ 0)
    (hq : (s.pair w).toInt.tdiv (s.valueAt w (s.place src)).toInt = q.toInt)
    (hr : (s.pair w).toInt.tmod (s.valueAt w (s.place src)).toInt = r.toInt) :
    exec (.idiv w src) s = .next ((s.setHalves w r q).setFlags (s.flags.divFlags s.draws)).drawn.advance := by
  refine (finish_readRm hp _).trans ?_
  rw [if_neg hd, hq, hr, if_neg (ne_true_of_eq_false (quotientOverflow_toInt q)), BitVec.ofInt_toInt, BitVec.ofInt_toInt]
  rfl

end

theorem ne_zero_of_natAbs_lt {n : Nat} {d : BitVec n} {r : Int} (h : r.natAbs < d.toInt.natAbs) : d ≠ 0 := by
  rintro rfl
  simp at h

/-- Settles O36: the division identity gives quotient and remainder, and with them which of the three outcomes it is. -/
theorem divideResults : Obligations.DivideResults := by
  refine ⟨fun s => ⟨⟨s.pair_w8, rfl, rfl⟩, s.setHalves_w8, s.setHalves_w16, s.setHalves_w32⟩,
    ⟨fun s w src q r hp => ?_, fun s w src q r hp => ?_⟩, fun s w src hp => ?_, fun s => rfl⟩
  · intro d hr h
    have hpos : 0 < d.toNat := Nat.zero_lt_of_lt hr
    have hdiv : r.toNat + d.toNat * q.toNat = (s.pair w).toNat := by rw [h, Nat.mul_comm, Nat.add_comm]
    obtain ⟨hq, hr⟩ := (Nat.div_mod_unique hpos).mpr ⟨hdiv, hr⟩
    exact exec_div_of hp (fun hd => absurd (congrArg BitVec.toNat hd) hpos.ne') hq hr
  · intro d hr hsign h
    obtain ⟨hq, hr'⟩ := tdiv_tmod_eq hr hsign h
    exact exec_idiv_of hp (ne_zero_of_natAbs_lt hr) hq hr'
  · intro d
    refine ⟨fun hd => ?_, fun hd => ?_, fun q r hr hsign h hq => ?_⟩
    · exact exec_div_idiv_zero hp (BitVec.eq_of_toNat_eq hd)
    · by_cases hzero : d = 0
      · exact (exec_div_idiv_zero hp hzero).1
      · have hpos : 0 < d.toNat := Nat.pos_of_ne_zero fun h => hzero (BitVec.eq_of_toNat_eq h)
        exact exec_div_overflow hp hzero ((Nat.le_div_iff_mul_le hpos).mpr (Nat.mul_comm _ _ ▸ hd))
    · obtain ⟨hq', -⟩ := tdiv_tmod_eq hr hsign h
      exact exec_idiv_overflow hp (ne_zero_of_natAbs_lt hr) (hq' ▸ (quotientOverflow_iff _ _).mpr hq)

end Sys2Proof.Machine
end

section
/-! SUPPORT. The decimal instructions: their adjustments as sums and differences of the bytes AL and AH (R440 to R445). -/

namespace Sys2Proof.Machine

/-! ## Numbers -/

theorem and_0x0F_toNat (x : BitVec 8) : (x &&& 0x0F).toNat = x.toNat % 16 :=
  (BitVec.toNat_and x 0x0F).trans (Nat.and_two_pow_sub_one_eq_mod x.toNat 4)

theorem ofNat16_eq_append (v : Nat) : BitVec.ofNat 16 v = BitVec.ofNat 8 (v / 256) ++ BitVec.ofNat 8 v := by
  apply BitVec.eq_of_toNat_eq
  rw [toNat_append_eq]
  simp only [BitVec.toNat_ofNat]
  omega

/-- AX with the high half of AL cleared, by its halves (R442, R443). -/
theorem ofNat16_and_mask (v : Nat) : BitVec.ofNat 16 v &&& 0xFF0F = BitVec.ofNat 8 (v / 256) ++ BitVec.ofNat 8 (v % 16) := by
  have hmask : (0xFF0F : BitVec 16) = BitVec.allOnes 8 ++ (0x0F : BitVec 8) := rfl
  have hlow : BitVec.ofNat 8 v &&& 0x0F = BitVec.ofNat 8 (v % 16) := by
    apply BitVec.eq_of_toNat_eq
    rw [and_0x0F_toNat, BitVec.toNat_ofNat, BitVec.toNat_ofNat]
    omega
  rw [ofNat16_eq_append, hmask, BitVec.and_append, BitVec.and_allOnes, hlow]

/-! ## FLAGS and the adjusted values -/

section
variable (f : Flags) (k : Nat)

theorem Flags.adjustLow_eq (al : BitVec 8) : f.adjustLow al = (decide (9 < al.toNat % 16) || f.af) := by
  rw [Flags.adjustLow, and_0x0F_toNat]

theorem Flags.daa_eq {al : BitVec 8} {lo hi : Bool} (hlo : f.adjustLow al = lo) (hhi : f.adjustHigh al = hi) {v : BitVec 8}
    (hv : v = BitVec.ofNat 8 (al.toNat + (if lo then 6 else 0) + (if hi then 0x60 else 0))) :
    f.daa k al = (v, { f with
      cf := hi, af := lo, sf := v.msb, zf := decide (v = 0), pf := parity v, ofl := Config.freeFlag k .ofl }) := by
  have hsum : (if hi then (if lo then al + 6 else al) + 0x60 else if lo then al + 6 else al) = v := by
    rw [hv, BitVec.ofNat_add, BitVec.ofNat_add, BitVec.ofNat_toNat, BitVec.setWidth_eq]
    cases lo <;> cases hi <;> simp
  simp only [Flags.daa, hlo, hhi, hsum]
  rfl

theorem Flags.das_eq {al : BitVec 8} {lo hi : Bool} (hlo : f.adjustLow al = lo) (hhi : f.adjustHigh al = hi) {v : BitVec 8}
    (hv : v = BitVec.ofNat 8 (al.toNat + 512 - (if lo then 6 else 0) - (if hi then 0x60 else 0))) :
    f.das k al = (v, { f with
      cf := hi || (lo && decide (al.toNat < 6)), af := lo, sf := v.msb, zf := decide (v = 0), pf := parity v,
      ofl := Config.freeFlag k .ofl }) := by
  have hdiff : (if hi then (if lo then al - 6 else al) - 0x60 else if lo then al - 6 else al) = v := by
    subst hv
    apply BitVec.eq_of_toNat_eq
    cases lo <;> cases hi <;> simp [BitVec.toNat_sub] <;> omega
  have hcf : (hi || (lo && (f.cf || decide (al.toNat < 6)))) = (hi || (lo && decide (al.toNat < 6))) := by
    subst hhi
    rw [Flags.adjustHigh]
    cases f.cf <;> simp
  simp only [Flags.das, hlo, hhi, hdiff, hcf]
  rfl

end

/-! ## AX as AH and AL (R442, R443) -/

theorem setWidth_append_low (ah al : BitVec 8) : (ah ++ al).setWidth 8 = al :=
  (BitVec.setWidth_eq_extractLsb' (by decide)).trans BitVec.extractLsb'_append_eq_right

/-- AX plus d, the high half of AL then cleared, by its halves. -/
theorem append_add_and_mask (ah al : BitVec 8) (d : Nat) :
    (ah ++ al + BitVec.ofNat 16 d) &&& 0xFF0F
      = BitVec.ofNat 8 ((ah.toNat * 256 + al.toNat + d) / 256) ++ BitVec.ofNat 8 ((al.toNat + d) % 16) := by
  have hsum : ah ++ al + BitVec.ofNat 16 d = BitVec.ofNat 16 (ah.toNat * 256 + al.toNat + d) := by
    have hval : ah.toNat * 256 + al.toNat = (ah ++ al).toNat := (Nat.add_comm _ _).trans (toNat_append_eq ah al).symm
    rw [BitVec.ofNat_add, hval, BitVec.ofNat_toNat, BitVec.setWidth_eq]
  have hmod : (ah.toNat * 256 + al.toNat + d) % 16 = (al.toNat + d) % 16 := by omega
  rw [hsum, ofNat16_and_mask, hmod]

theorem append_and_mask (ah al : BitVec 8) : (ah ++ al) &&& (0xFF0F : BitVec 16) = ah ++ BitVec.ofNat 8 (al.toNat % 16) := by
  have hsum := append_add_and_mask ah al 0
  have hdiv : (ah.toNat * 256 + al.toNat) / 256 = ah.toNat := by omega
  simpa [hdiv] using hsum

/-- AF, CF and the free flags of AAA and AAS. -/
def Flags.asciiAdjusted (f : Flags) (k : Nat) (lo : Bool) : Flags :=
  { f with
    af := lo, cf := lo, ofl := Config.freeFlag k .ofl, sf := Config.freeFlag k .sf, zf := Config.freeFlag k .zf,
    pf := Config.freeFlag k .pf }

section
variable (f : Flags) (k : Nat) {ah al : BitVec 8} {lo : Bool} (hlo : f.adjustLow al = lo)
include hlo

theorem Flags.aaa_append :
    f.aaa k (ah ++ al) =
      (BitVec.ofNat 8 (if lo then ah.toNat + 1 + (al.toNat + 6) / 256 else ah.toNat)
        ++ BitVec.ofNat 8 ((if lo then al.toNat + 6 else al.toNat) % 16), f.asciiAdjusted k lo) := by
  have hlow : f.adjustLow ((ah ++ al).setWidth 8) = lo := (congrArg f.adjustLow (setWidth_append_low ah al)).trans hlo
  simp only [Flags.aaa, hlow]
  refine Prod.ext ?_ rfl
  cases lo with
  | false => simpa using append_and_mask ah al
  | true =>
    have hhigh : (ah.toNat * 256 + al.toNat + 0x106) / 256 = ah.toNat + 1 + (al.toNat + 6) / 256 := by omega
    have hmod : (al.toNat + 0x106) % 16 = (al.toNat + 6) % 16 := by omega
    simp only [if_true, ← hhigh, ← hmod]
    exact append_add_and_mask ah al 0x106

theorem Flags.aas_append :
    f.aas k (ah ++ al) =
      (BitVec.ofNat 8 (if lo then ah.toNat + 256 - 1 - (if al.toNat < 6 then 1 else 0) else ah.toNat)
        ++ BitVec.ofNat 8 ((if lo then al.toNat + 256 - 6 else al.toNat) % 16), f.asciiAdjusted k lo) := by
  have hlow : f.adjustLow ((ah ++ al).setWidth 8) = lo := (congrArg f.adjustLow (setWidth_append_low ah al)).trans hlo
  simp only [Flags.aas, hlow]
  refine Prod.ext ?_ rfl
  cases lo with
  | false => simpa using append_and_mask ah al
  | true =>
    have hsub : ah ++ al - 6 - 0x100 = ah ++ al + BitVec.ofNat 16 (2 ^ 16 - 0x106) := (sub_sub _ _ _).trans (sub_eq_add_neg _ _)
    have hhigh : (ah.toNat * 256 + al.toNat + (2 ^ 16 - 0x106)) / 256
        = ah.toNat + 256 - 1 - (if al.toNat < 6 then 1 else 0) := by split <;> omega
    have hmod : (al.toNat + (2 ^ 16 - 0x106)) % 16 = (al.toNat + 256 - 6) % 16 := by omega
    simp only [if_true, ← hhigh, ← hmod]
    exact (congrArg (· &&& 0xFF0F) hsub).trans (append_add_and_mask ah al _)

end

section
variable (s : State)

theorem State.reg_ax : s.reg .w16 .eax = s.reg .w8 .esp ++ s.reg .w8 .eax :=
  (BitVec.setWidth_eq_extractLsb' (v := 32) (by decide)).trans s.pair_w8.symm

theorem State.setReg_ax (hi lo : BitVec 8) : s.setReg .w16 .eax (hi ++ lo) = s.setHalves .w8 hi lo := by
  have hassoc : s.regs.eax.extractLsb' 16 16 ++ hi ++ lo = s.regs.eax.extractLsb' 16 16 ++ (hi ++ lo) := BitVec.append_assoc
  rw [State.setHalves_w8, hassoc]
  rfl

end

/-! ## The instructions -/

section
variable {s : State} {g : Flags}

theorem exec_daa_of {v : BitVec 8} (h : s.flags.daa s.draws (s.reg .w8 .eax) = (v, g)) :
    exec .daa s = .next ((s.setReg .w8 .eax v).setFlags g).drawn.advance := by
  change execDaa s = _
  rw [execDaa, h]

theorem exec_das_of {v : BitVec 8} (h : s.flags.das s.draws (s.reg .w8 .eax) = (v, g)) :
    exec .das s = .next ((s.setReg .w8 .eax v).setFlags g).drawn.advance := by
  change execDas s = _
  rw [execDas, h]

variable {hi lo : BitVec 8}

theorem exec_aaa_of (h : s.flags.aaa s.draws (s.reg .w8 .esp ++ s.reg .w8 .eax) = (hi ++ lo, g)) :
    exec .aaa s = .next ((s.setHalves .w8 hi lo).setFlags g).drawn.advance := by
  change execAaa s = _
  rw [execAaa, State.reg_ax, h, State.setReg_ax]

theorem exec_aas_of (h : s.flags.aas s.draws (s.reg .w8 .esp ++ s.reg .w8 .eax) = (hi ++ lo, g)) :
    exec .aas s = .next ((s.setHalves .w8 hi lo).setFlags g).drawn.advance := by
  change execAas s = _
  rw [execAas, State.reg_ax, h, State.setReg_ax]

end

/-- Settles O37: each is its value and its flags, put into AL or into AX. -/
theorem decimalResults : Obligations.DecimalResults := by
  refine ⟨fun s => ?_, fun s base => ?_⟩
  · intro al ah lo hi free add sub ascii
    have hlo : s.flags.adjustLow (s.reg .w8 .eax) = lo := s.flags.adjustLow_eq _
    exact ⟨exec_daa_of (s.flags.daa_eq s.draws hlo rfl rfl), exec_das_of (s.flags.das_eq s.draws hlo rfl rfl),
      exec_aaa_of (s.flags.aaa_append s.draws hlo), exec_aas_of (s.flags.aas_append s.draws hlo)⟩
  · intro al ah free flags
    refine ⟨fun hbase => ?_, ?_⟩
    · have hquot : BitVec.ofNat 8 (al / base.toNat) = s.reg .w8 .eax / base := by
        rw [← BitVec.toNat_udiv, BitVec.ofNat_toNat, BitVec.setWidth_eq]
      have hrem : BitVec.ofNat 8 (al % base.toNat) = s.reg .w8 .eax % base := by
        rw [← BitVec.toNat_umod, BitVec.ofNat_toNat, BitVec.setWidth_eq]
      rw [hquot, hrem]
      exact congrArg finish (if_neg hbase)
    · have hsum : BitVec.ofNat 8 (al + ah * base.toNat) = s.reg .w8 .eax + s.reg .w8 .esp * base := by
        rw [BitVec.ofNat_add, BitVec.ofNat_mul]
        simp only [al, ah, BitVec.ofNat_toNat, BitVec.setWidth_eq]
      rw [hsum]
      rfl

end Sys2Proof.Machine
end

section
/-! SUPPORT. Shifts and rotates: what the one-position steps of R471 to R477 come to when they are repeated, and the double shifts of
R480 and R481 as parts of a concatenation. -/

namespace Sys2Proof.Machine

/-! ## The loop -/

section
variable {n : Nat} {step : BitVec n → Bool → BitVec n × Bool} (k : Nat) (x : BitVec n) (c : Bool)

/-- A view of value and CF that each step moves by 1 has been moved by k after k steps. -/
theorem shiftLoop_view {α : Type} (view : BitVec n × Bool → α) (move : Nat → α → α) (hzero : ∀ v, move 0 v = v)
    (hsucc : ∀ k v, move (k + 1) v = move k (move 1 v)) (hstep : ∀ x c, view (step x c) = move 1 (view (x, c))) :
    view (shiftLoop step k x c) = move k (view (x, c)) := by
  induction k generalizing x c with
  | zero => exact (hzero _).symm
  | succ k ih =>
    rw [hsucc, ← hstep]
    exact ih _ _

/-- The last step by itself: it alone decides CF. -/
theorem shiftLoop_succ : shiftLoop step (k + 1) x c = step (shiftLoop step k x c).1 (shiftLoop step k x c).2 := by
  induction k generalizing x c with
  | zero => rfl
  | succ k ih => exact ih _ _

end

/-! ## Rotations -/

section
variable {n : Nat} (x : BitVec n) (i k : Nat)

theorem rotateLeft_zero : x.rotateLeft 0 = x := by
  rw [BitVec.rotateLeft_def, Nat.zero_mod, BitVec.ushiftRight_eq_zero (by omega), BitVec.shiftLeft_zero, BitVec.or_zero]

theorem rotateRight_zero : x.rotateRight 0 = x := by
  rw [BitVec.rotateRight_def, Nat.zero_mod, BitVec.shiftLeft_eq_zero (by omega), BitVec.ushiftRight_zero, BitVec.or_zero]

theorem getLsbD_rotateRight_eq_mod (hi : i < n) : (x.rotateRight k).getLsbD i = x.getLsbD ((k + i) % n) := by
  have hk : k % n < n := Nat.mod_lt _ (by omega)
  rw [BitVec.getLsbD_rotateRight, ← Nat.mod_add_mod]
  by_cases h : k % n + i < n
  · simp [Nat.mod_eq_of_lt h, show i < n - k % n by omega]
  · have hmod : (k % n + i) % n = k % n + i - n := by rw [Nat.mod_eq_sub_mod (by omega), Nat.mod_eq_of_lt (by omega)]
    simp [hmod, show ¬ i < n - k % n by omega, hi, show i - (n - k % n) = k % n + i - n by omega]

theorem rotateLeft_succ : x.rotateLeft (k + 1) = (x.rotateLeft 1).rotateLeft k := by
  apply BitVec.eq_of_getMsbD_eq
  intro i hi
  have hlt : (k + i) % n < n := Nat.mod_lt _ (by omega)
  simp only [BitVec.getMsbD_rotateLeft, hi, hlt, decide_true, Bool.true_and, Nat.add_mod_mod]
  congr 2
  omega

theorem rotateRight_succ : x.rotateRight (k + 1) = (x.rotateRight 1).rotateRight k := by
  apply BitVec.eq_of_getLsbD_eq
  intro i hi
  have hlt : (k + i) % n < n := Nat.mod_lt _ (by omega)
  rw [getLsbD_rotateRight_eq_mod _ _ _ hi, getLsbD_rotateRight_eq_mod _ _ _ hi, getLsbD_rotateRight_eq_mod _ _ _ hlt,
    Nat.add_mod_mod]
  congr 2
  omega

end

/-! ## The bits of a value as numbers -/

section
variable {n : Nat} (x : BitVec n)

theorem getLsbD_eq_decide (i : Nat) : x.getLsbD i = decide (x.toNat / 2 ^ i % 2 = 1) := Nat.testBit_eq_decide_div_mod_eq

theorem getLsbD_zero_eq_toInt (hn : 0 < n) : x.getLsbD 0 = decide (x.toInt % 2 = 1) := by
  have hdvd : (2 : Int) ∣ ((2 ^ n : Nat) : Int) := by exact_mod_cast dvd_pow_self 2 hn.ne'
  rw [getLsbD_eq_decide, BitVec.toInt_eq_toNat_bmod, ← Int.emod_emod_of_dvd _ hdvd, Int.bmod_emod,
    Int.emod_emod_of_dvd _ hdvd, pow_zero, Nat.div_one, decide_eq_decide]
  omega

/-- The bit that one more position would shift out on the left. -/
theorem msb_shiftLeft_eq_decide (hn : 0 < n) (k : Nat) :
    (x <<< k).msb = decide (x.toNat * 2 ^ (k + 1) / 2 ^ n % 2 = 1) := by
  obtain ⟨m, rfl⟩ := Nat.exists_eq_succ_of_ne_zero hn.ne'
  have hdiv : x.toNat * 2 ^ (k + 1) / 2 ^ (m + 1) = x.toNat * 2 ^ k / 2 ^ m := by
    rw [pow_succ, pow_succ, ← mul_assoc, Nat.mul_div_mul_right _ _ two_pos]
  have hmod (v : Nat) : (v % 2 ^ (m + 1)).testBit m = v.testBit m := by simp
  rw [BitVec.msb_eq_getLsbD_last, ← BitVec.testBit_toNat, BitVec.toNat_shiftLeft, Nat.shiftLeft_eq, Nat.succ_sub_one, hmod,
    Nat.testBit_eq_decide_div_mod_eq, hdiv]

end

/-! ## One position (R471 to R474, R477) -/

section
variable {n : Nat} (x : BitVec n) (c : Bool) (i : Nat)

theorem getLsbD_lowBit : (lowBit n c).getLsbD i = (decide (i < n) && decide (i = 0) && c) := by
  rw [lowBit, ofNat_boolToNat]
  simp [Bool.and_assoc]

theorem getLsbD_highBit : (highBit n c).getLsbD i = (decide (i + 1 = n) && c) := by
  rw [highBit, ofNat_boolToNat]
  by_cases h : i + 1 = n
  · subst h
    simp
  · by_cases hi : i < n
    · simp [h, show i < n - 1 by omega]
    · simp [h, hi]

theorem lowBit_msb : lowBit n x.msb = x >>> (n - 1) := by
  apply BitVec.eq_of_getLsbD_eq
  intro i hi
  rw [getLsbD_lowBit, BitVec.getLsbD_ushiftRight, BitVec.msb_eq_getLsbD_last]
  by_cases h : i = 0
  · subst h
    simp [hi]
  · simp [h, BitVec.getLsbD_of_ge x (n - 1 + i) (by omega)]

theorem highBit_lsb : highBit n (x.getLsbD 0) = x <<< (n - 1) := by
  apply BitVec.eq_of_getLsbD_eq
  intro i hi
  rw [getLsbD_highBit, BitVec.getLsbD_shiftLeft]
  by_cases h : i + 1 = n
  · subst h
    simp
  · simp [h, show i < n - 1 by omega]

theorem sarStep_fst : (sarStep x c).1 = x.sshiftRight 1 := by
  apply BitVec.eq_of_getLsbD_eq
  intro i hi
  rw [sarStep, BitVec.getLsbD_or, getLsbD_highBit, BitVec.getLsbD_ushiftRight, BitVec.getLsbD_sshiftRight]
  by_cases h : 1 + i < n
  · simp [h, show ¬ n ≤ i by omega, show i + 1 ≠ n by omega]
  · simp [h, show ¬ n ≤ i by omega, show i + 1 = n by omega, BitVec.getLsbD_of_ge x (1 + i) (by omega)]

variable (hn : 1 < n)
include hn

theorem rolStep_fst : (rolStep x c).1 = x.rotateLeft 1 := by
  rw [rolStep, lowBit_msb, BitVec.rotateLeft_def, Nat.mod_eq_of_lt hn]

theorem rorStep_fst : (rorStep x c).1 = x.rotateRight 1 := by
  rw [rorStep, highBit_lsb, BitVec.rotateRight_def, Nat.mod_eq_of_lt hn]

theorem rolStep_snd : (rolStep x c).2 = (rolStep x c).1.getLsbD 0 := by
  simp only [rolStep, BitVec.getLsbD_or, getLsbD_lowBit]
  simp [Nat.zero_lt_of_lt hn]

theorem rorStep_snd : (rorStep x c).2 = (rorStep x c).1.msb := by
  rw [rorStep, BitVec.msb_eq_getLsbD_last, BitVec.getLsbD_or, getLsbD_highBit, BitVec.getLsbD_ushiftRight]
  simp [show n - 1 + 1 = n by omega, Nat.add_comm 1]

end

/-! ## The operand with CF on top, which RCL and RCR rotate (R473, R474) -/

/-- CF and the value as one word, CF the highest bit. -/
def joined {n : Nat} (p : BitVec n × Bool) : BitVec (1 + n) := BitVec.ofBool p.2 ++ p.1

section
variable {n : Nat}

theorem getLsbD_joined (p : BitVec n × Bool) (i : Nat) :
    (joined p).getLsbD i = if i < n then p.1.getLsbD i else decide (i = n) && p.2 := by
  rw [joined, BitVec.getLsbD_append]
  split
  · rfl
  · rw [BitVec.getLsbD_ofBool]
    congr 2
    simp
    omega

theorem eq_of_joined_eq {p : BitVec n × Bool} {v : BitVec (1 + n)} (h : joined p = v) :
    p = (v.extractLsb' 0 n, v.msb) := by
  subst h
  refine Prod.ext BitVec.extractLsb'_append_eq_right.symm ?_
  rw [joined, BitVec.msb_append, if_neg (by decide), BitVec.msb_ofBool]

variable (hn : 0 < n) (x : BitVec n) (c : Bool)
include hn

theorem joined_rclStep : joined (rclStep x c) = (joined (x, c)).rotateLeft 1 := by
  apply BitVec.eq_of_getLsbD_eq
  intro i hi
  rw [BitVec.getLsbD_rotateLeft_of_le (by omega)]
  simp only [getLsbD_joined, rclStep, BitVec.getLsbD_or, getLsbD_lowBit, BitVec.getLsbD_shiftLeft]
  obtain h | h | h : i = 0 ∨ i = n ∨ (0 < i ∧ i < n) := by omega
  · simp [h, hn]
  · simp [h, hn, hn.ne', BitVec.msb_eq_getLsbD_last, Nat.add_comm 1]
  · simp [h, h.1.ne', show i < 1 + n by omega, show i - 1 < n by omega]

theorem joined_rcrStep : joined (rcrStep x c) = (joined (x, c)).rotateRight 1 := by
  apply BitVec.eq_of_getLsbD_eq
  intro i hi
  rw [getLsbD_rotateRight_eq_mod _ _ _ hi]
  simp only [getLsbD_joined, rcrStep, BitVec.getLsbD_or, getLsbD_highBit, BitVec.getLsbD_ushiftRight]
  obtain h | h | h : i = n ∨ i + 1 = n ∨ i + 1 < n := by omega
  · simp [h, hn]
  · subst h
    simp [Nat.add_comm 1]
  · rw [Nat.mod_eq_of_lt (by omega)]
    simp [h, h.ne, show i < n by omega, Nat.add_comm 1]

end

/-! ## k positions: the value -/

section
variable {n : Nat} (x : BitVec n) (c : Bool) (k : Nat)

theorem shiftLoop_rol_fst (hn : 1 < n) : (shiftLoop rolStep k x c).1 = x.rotateLeft k :=
  shiftLoop_view k x c Prod.fst (fun k v => v.rotateLeft k) rotateLeft_zero (fun k v => rotateLeft_succ v k)
    fun x c => rolStep_fst x c hn

theorem shiftLoop_ror_fst (hn : 1 < n) : (shiftLoop rorStep k x c).1 = x.rotateRight k :=
  shiftLoop_view k x c Prod.fst (fun k v => v.rotateRight k) rotateRight_zero (fun k v => rotateRight_succ v k)
    fun x c => rorStep_fst x c hn

theorem joined_shiftLoop_rcl (hn : 0 < n) : joined (shiftLoop rclStep k x c) = (joined (x, c)).rotateLeft k :=
  shiftLoop_view k x c joined (fun k v => v.rotateLeft k) rotateLeft_zero (fun k v => rotateLeft_succ v k) (joined_rclStep hn)

theorem joined_shiftLoop_rcr (hn : 0 < n) : joined (shiftLoop rcrStep k x c) = (joined (x, c)).rotateRight k :=
  shiftLoop_view k x c joined (fun k v => v.rotateRight k) rotateRight_zero (fun k v => rotateRight_succ v k)
    (joined_rcrStep hn)

theorem shiftLoop_shl_fst : (shiftLoop shlStep k x c).1 = x <<< k :=
  shiftLoop_view k x c Prod.fst (fun k v => v <<< k) BitVec.shiftLeft_zero
    (fun k v => Nat.add_comm 1 k ▸ BitVec.shiftLeft_add v 1 k) fun _ _ => rfl

theorem shiftLoop_shr_fst : (shiftLoop shrStep k x c).1 = x >>> k :=
  shiftLoop_view k x c Prod.fst (fun k v => v >>> k) BitVec.ushiftRight_zero
    (fun k v => Nat.add_comm 1 k ▸ BitVec.shiftRight_add v 1 k) fun _ _ => rfl

theorem shiftLoop_sar_fst : (shiftLoop sarStep k x c).1 = x.sshiftRight k :=
  shiftLoop_view k x c Prod.fst (fun k v => v.sshiftRight k) (fun _ => BitVec.sshiftRight_zero)
    (fun k _ => Nat.add_comm 1 k ▸ BitVec.sshiftRight_add (m := 1)) sarStep_fst

end

/-! ## k positions: the value and CF -/

section
variable {n : Nat} (x : BitVec n) (c : Bool) {k : Nat}

theorem shiftLoop_rcl (hn : 0 < n) : shiftLoop rclStep k x c =
    (((joined (x, c)).rotateLeft k).extractLsb' 0 n, ((joined (x, c)).rotateLeft k).msb) :=
  eq_of_joined_eq (joined_shiftLoop_rcl x c k hn)

theorem shiftLoop_rcr (hn : 0 < n) : shiftLoop rcrStep k x c =
    (((joined (x, c)).rotateRight k).extractLsb' 0 n, ((joined (x, c)).rotateRight k).msb) :=
  eq_of_joined_eq (joined_shiftLoop_rcr x c k hn)

variable (hk : k ≠ 0)
include hk

theorem shiftLoop_rol (hn : 1 < n) : shiftLoop rolStep k x c = (x.rotateLeft k, (x.rotateLeft k).getLsbD 0) := by
  rw [← shiftLoop_rol_fst x c k hn]
  obtain ⟨m, rfl⟩ := Nat.exists_eq_succ_of_ne_zero hk
  rw [shiftLoop_succ, ← rolStep_snd _ _ hn]

theorem shiftLoop_ror (hn : 1 < n) : shiftLoop rorStep k x c = (x.rotateRight k, (x.rotateRight k).msb) := by
  rw [← shiftLoop_ror_fst x c k hn]
  obtain ⟨m, rfl⟩ := Nat.exists_eq_succ_of_ne_zero hk
  rw [shiftLoop_succ, ← rorStep_snd _ _ hn]

theorem shiftLoop_shl (hn : 0 < n) : shiftLoop shlStep k x c =
    (BitVec.ofNat n (x.toNat * 2 ^ k), decide (x.toNat * 2 ^ k / 2 ^ n % 2 = 1)) := by
  refine Prod.ext ((shiftLoop_shl_fst x c k).trans ?_) ?_
  · exact BitVec.eq_of_toNat_eq (by rw [BitVec.toNat_shiftLeft, Nat.shiftLeft_eq, BitVec.toNat_ofNat])
  · obtain ⟨m, rfl⟩ := Nat.exists_eq_succ_of_ne_zero hk
    rw [shiftLoop_succ, shlStep, shiftLoop_shl_fst]
    exact msb_shiftLeft_eq_decide x hn m

theorem shiftLoop_shr : shiftLoop shrStep k x c =
    (BitVec.ofNat n (x.toNat / 2 ^ k), decide (x.toNat / 2 ^ (k - 1) % 2 = 1)) := by
  refine Prod.ext ((shiftLoop_shr_fst x c k).trans ?_) ?_
  · rw [← Nat.shiftRight_eq_div_pow, ← BitVec.toNat_ushiftRight, BitVec.ofNat_toNat, BitVec.setWidth_eq]
  · obtain ⟨m, rfl⟩ := Nat.exists_eq_succ_of_ne_zero hk
    rw [shiftLoop_succ, shrStep, shiftLoop_shr_fst, BitVec.getLsbD_ushiftRight]
    exact getLsbD_eq_decide x m

theorem shiftLoop_sar (hn : 0 < n) : shiftLoop sarStep k x c =
    (BitVec.ofInt n (x.toInt / 2 ^ k), decide (x.toInt / 2 ^ (k - 1) % 2 = 1)) := by
  have hpow (m : Nat) : x.toInt >>> m = x.toInt / 2 ^ m := by rw [Int.shiftRight_eq_div_pow, Nat.cast_pow, Nat.cast_two]
  refine Prod.ext ((shiftLoop_sar_fst x c k).trans ?_) ?_
  · rw [BitVec.sshiftRight_eq, hpow]
  · obtain ⟨m, rfl⟩ := Nat.exists_eq_succ_of_ne_zero hk
    rw [shiftLoop_succ, sarStep, shiftLoop_sar_fst, getLsbD_zero_eq_toInt _ hn, BitVec.toInt_sshiftRight, hpow, Nat.succ_sub_one]

end

/-! ## Double shifts (R480, R481) -/

section
variable {n : Nat} (a b : BitVec n) {k : Nat} (hk : k ≤ n)
include hk

theorem shldValue_eq_extractLsb' : shldValue a b k = ((a ++ b) <<< k).extractLsb' n n := by
  apply BitVec.eq_of_getLsbD_eq
  intro i hi
  rw [shldValue, BitVec.getLsbD_or, BitVec.getLsbD_shiftLeft, BitVec.getLsbD_ushiftRight, BitVec.getLsbD_extractLsb',
    BitVec.getLsbD_shiftLeft, BitVec.getLsbD_append]
  have hout : ¬ n + i < k := by omega
  by_cases h : i < k
  · simp [hi, h, hout, show n + i - k < n by omega, show n - k + i = n + i - k by omega]
  · simp [hi, h, hout, show ¬ n + i - k < n by omega, show n + i - k - n = i - k by omega,
      BitVec.getLsbD_of_ge b (n - k + i) (by omega)]

theorem shrdValue_eq_extractLsb' : shrdValue a b k = ((b ++ a) >>> k).extractLsb' 0 n := by
  apply BitVec.eq_of_getLsbD_eq
  intro i hi
  rw [shrdValue, BitVec.getLsbD_or, BitVec.getLsbD_shiftLeft, BitVec.getLsbD_ushiftRight, BitVec.getLsbD_extractLsb',
    BitVec.getLsbD_ushiftRight, BitVec.getLsbD_append]
  by_cases h : k + i < n
  · simp [hi, h, show i < n - k by omega]
  · simp [hi, h, show ¬ i < n - k by omega, show i - (n - k) = k + i - n by omega, BitVec.getLsbD_of_ge a (k + i) (by omega)]

end

end Sys2Proof.Machine
end

section
/-! SUPPORT. The shift, rotate and double-shift instructions: their flags and their two shapes, with a zero count and with any other
(R470 to R481). -/

namespace Sys2Proof.Machine

/-! ## FLAGS -/

section
variable (f : Flags) (k : Nat) {c : Bool} {n cnt : Nat} {a r : BitVec n}
  {step : BitVec n → Bool → BitVec n × Bool} (ovf : BitVec n → BitVec n → Bool → Bool)

theorem Flags.putOverflow_eq (b : Bool) :
    f.putOverflow k cnt b = { f with ofl := if cnt = 1 then b else Config.freeFlag k .ofl } := by
  obtain ⟨-, -, -, -, h⟩ := resultFlags.2 f k cnt b
  exact h

theorem Flags.rotate_eq (h : shiftLoop step cnt a f.cf = (r, c)) : f.rotate k step ovf cnt a =
    (r, { f with cf := c, ofl := if cnt = 1 then ovf a r c else Config.freeFlag k .ofl }) := by
  rw [Flags.rotate, h, Flags.putOverflow_eq]

theorem Flags.shift_eq (h : shiftLoop step cnt a f.cf = (r, c)) : f.shift k step ovf cnt a =
    (r, { f with
      cf := c, ofl := if cnt = 1 then ovf a r c else Config.freeFlag k .ofl, sf := r.msb, zf := decide (r = 0), pf := parity r,
      af := Config.freeFlag k .af }) := by
  rw [Flags.shift, f.rotate_eq k ovf h]
  rfl

theorem Flags.doubleShift_eq (h : cnt ≤ n) : f.doubleShift k cnt a r c =
    (r, { f with
      cf := c, ofl := if cnt = 1 then r.msb ^^ a.msb else Config.freeFlag k .ofl, sf := r.msb, zf := decide (r = 0), pf := parity r,
      af := Config.freeFlag k .af }) := by
  rw [Flags.doubleShift, if_neg (Nat.not_lt.mpr h), Flags.putOverflow_eq]
  rfl

end

/-! ## Shapes -/

theorem State.shiftCount_cl (s : State) : s.shiftCount .cl = s.regs.ecx.toNat % 32 := by
  change (s.regs.ecx.extractLsb' 0 8).toNat % 32 = _
  simp

section
variable {s : State} {w : Width} {dst : Rm} {count : ShiftCount} (hd : s.placeOk w (s.place dst) = true)
include hd

theorem finish_shiftRm_zero (f : Nat → BitVec w.bits → BitVec w.bits × Flags) (hn : s.shiftCount count = 0) :
    finish (s.shiftRm w dst count f >>= fun t => .ok t.advance) = .next s.advance :=
  finish_of_ok (bind_ok.mpr ⟨s, bind_ok.mpr ⟨_, State.readRm_of hd, if_pos hn⟩, rfl⟩)

theorem finish_shiftRm {f : Nat → BitVec w.bits → BitVec w.bits × Flags} {r : BitVec w.bits} {g : Flags}
    (hn : s.shiftCount count ≠ 0) (hf : f (s.shiftCount count) (s.valueAt w (s.place dst)) = (r, g)) :
    finish (s.shiftRm w dst count f >>= fun t => .ok t.advance)
      = .next ((s.wrote w (s.place dst) r).setFlags g).drawn.advance := by
  refine finish_of_ok (bind_ok.mpr ⟨_, bind_ok.mpr ⟨_, State.readRm_of hd, (if_neg hn).trans ?_⟩, rfl⟩)
  rw [hf]
  exact bind_ok.mpr ⟨_, State.writeRm_of r hd, rfl⟩

end

/-! ## The obligations -/

/-- Settles O38: each is the shape with a nonzero count, its loop a rotation of the operand or of the operand with CF on top. -/
theorem rotateResults : Obligations.RotateResults := by
  intro s w dst count hd p a n flags hn
  have hpos : 0 < w.bits := width_bits_pos w
  have hone : 1 < w.bits := (show 1 < 4 by decide).trans (width_four_lt_bits w)
  exact ⟨finish_shiftRm hd hn (s.flags.rotate_eq _ leftOverflow (shiftLoop_rol a _ hn hone)),
    finish_shiftRm hd hn (s.flags.rotate_eq _ rightOverflow (shiftLoop_ror a _ hn hone)),
    finish_shiftRm hd hn (s.flags.rotate_eq _ leftOverflow (shiftLoop_rcl a _ hpos)),
    finish_shiftRm hd hn (s.flags.rotate_eq _ rightOverflow (shiftLoop_rcr a _ hpos))⟩

/-- Settles O39: each is the shape with a nonzero count, its loop a product or a quotient. -/
theorem shiftResults : Obligations.ShiftResults := by
  intro s w dst count hd p a n free flags hn
  have hpos : 0 < w.bits := width_bits_pos w
  exact ⟨finish_shiftRm hd hn (s.flags.shift_eq _ leftOverflow (shiftLoop_shl a _ hn hpos)),
    finish_shiftRm hd hn (s.flags.shift_eq _ shrOverflow (shiftLoop_shr a _ hn)),
    finish_shiftRm hd hn (s.flags.shift_eq _ sarOverflow (shiftLoop_sar a _ hn hpos))⟩

/-- Settles O40: all nine are the shape with a zero count. -/
theorem zeroCountChangesNothing : Obligations.ZeroCountChangesNothing := by
  refine fun s => ⟨⟨fun n => rfl, rfl, s.shiftCount_cl⟩, fun count hn => ⟨fun w dst hd => ?_, fun os dst g hd => ?_⟩⟩
  · have hzero := fun f => finish_shiftRm_zero hd f hn
    exact ⟨hzero _, hzero _, hzero _, hzero _, hzero _, hzero _, hzero _⟩
  · exact ⟨finish_shiftRm_zero hd _ hn, finish_shiftRm_zero hd _ hn⟩

/-- Settles O41: up to the width the values are halves of a shifted concatenation, above it everything is free. -/
theorem doubleShiftResults : Obligations.DoubleShiftResults := by
  intro s os dst g count hd w p a b n free flags
  refine ⟨fun hn hle => ⟨?_, ?_⟩, fun hlt => ?_⟩
  · rw [← shldValue_eq_extractLsb' a b hle]
    exact finish_shiftRm hd hn (s.flags.doubleShift_eq s.draws hle)
  · rw [← shrdValue_eq_extractLsb' a b hle]
    exact finish_shiftRm hd hn (s.flags.doubleShift_eq s.draws hle)
  · have hn : n ≠ 0 := Nat.ne_zero_of_lt hlt
    exact ⟨finish_shiftRm hd hn (if_pos hlt), finish_shiftRm hd hn (if_pos hlt)⟩

end Sys2Proof.Machine
end

section
/-! SUPPORT. Bit tests and bit scans: the bit that a signed offset names, and the index that a scan finds (R489 to R495). -/

namespace Sys2Proof.Machine

/-! ## Bit tests (R489 to R493) -/

section
variable {s : State} {os : Size}

/-- The word and the bit of a signed offset are its quotient and its remainder (R489). -/
theorem State.bitPlace_mem {m : MemRef} {g : Reg} {q : Int} {i : Nat} (hi : i < os.width.bits)
    (h : (s.reg os.width g).toInt = q * os.width.bits + i) : s.bitPlace os (.mem m) (.reg g)
      = (.mem (s.linear m.seg (truncTo m.ea.size (s.effAddr m.ea + BitVec.ofInt 32 (os.width.bits / 8 * q)))), i) := by
  have hpos : (0 : Int) < os.width.bits := Nat.cast_pos.mpr (width_bits_pos os.width)
  have hsum : (i : Int) + os.width.bits * q = (s.reg os.width g).toInt := by rw [h, mul_comm, add_comm]
  obtain ⟨hq, hr⟩ := (Int.ediv_emod_unique hpos).mpr ⟨hsum, Int.natCast_nonneg i, Nat.cast_lt.mpr hi⟩
  have hbytes : ∀ os : Size, (os.width.bytes : Int) = os.width.bits / 8 := fun os => by cases os <;> rfl
  simp only [State.bitPlace, State.memAddrPlus, hq, hr, hbytes, Int.toNat_natCast]

variable {dst : Rm} {off : BitOff} (hp : s.placeOk os.width (s.bitPlace os dst off).1 = true)
include hp

theorem exec_bt_of : exec (.bt os dst off) s = .next (s.setFlags (s.flags.bitFlags s.draws
    ((s.valueAt os.width (s.bitPlace os dst off).1).getLsbD (s.bitPlace os dst off).2))).drawn.advance :=
  finish_of_ok (bind_ok.mpr ⟨_, State.readAt_iff.mpr ⟨hp, rfl⟩, rfl⟩)

theorem finish_bitModify (f : BitVec os.width.bits → BitVec os.width.bits → BitVec os.width.bits) :
    finish (s.bitModify os dst off f >>= fun t => .ok t.advance) =
      .next ((s.wrote os.width (s.bitPlace os dst off).1
        (f (s.valueAt os.width (s.bitPlace os dst off).1) (BitVec.twoPow os.width.bits (s.bitPlace os dst off).2))).setFlags
        (s.flags.bitFlags s.draws
          ((s.valueAt os.width (s.bitPlace os dst off).1).getLsbD (s.bitPlace os dst off).2))).drawn.advance :=
  finish_of_ok (bind_ok.mpr ⟨_, bind_ok.mpr ⟨_, State.readAt_iff.mpr ⟨hp, rfl⟩,
    bind_ok.mpr ⟨_, State.writeAt_iff.mpr ⟨hp, rfl⟩, rfl⟩⟩, rfl⟩)

end

/-! ## Bit scans (R494, R495) -/

/-- The greatest index that satisfies p is the first one found from above. -/
theorem find?_reverse_range_eq_some {p : Nat → Bool} {m i : Nat} (hlt : i < m) (h : p i = true)
    (hhigh : ∀ j, i < j → p j = false) : (List.range m).reverse.find? p = some i := by
  induction m with
  | zero => exact absurd hlt (Nat.not_lt_zero i)
  | succ m ih =>
    rw [List.range_succ, List.reverse_append, List.reverse_singleton, List.singleton_append, List.find?_cons]
    rcases Nat.lt_succ_iff_lt_or_eq.mp hlt with hlt | rfl
    · rw [hhigh m hlt]
      exact ih hlt
    · rw [h]

section
variable {n : Nat} {v : BitVec n} {i : Nat}

theorem lowestSet_eq_some (h : v.getLsbD i = true) (hlow : ∀ j < i, v.getLsbD j = false) : lowestSet v = some i :=
  List.find?_range_eq_some.mpr
    ⟨h, List.mem_range.mpr (BitVec.lt_of_getLsbD h), fun j hj => by rw [hlow j hj, Bool.not_false]⟩

theorem highestSet_eq_some (h : v.getLsbD i = true) (hhigh : ∀ j, i < j → v.getLsbD j = false) : highestSet v = some i :=
  find?_reverse_range_eq_some (BitVec.lt_of_getLsbD h) h hhigh

theorem lowestSet_zero : lowestSet (0 : BitVec n) = none := List.find?_eq_none.mpr (by simp)

theorem highestSet_zero : highestSet (0 : BitVec n) = none := List.find?_eq_none.mpr (by simp)

end

section
variable {s : State} {os : Size} {g : Reg} {src : Rm} (hp : s.placeOk os.width (s.place src) = true) {i : Option Nat}
include hp

theorem exec_bsf_of (h : lowestSet (s.valueAt os.width (s.place src)) = i) :
    exec (.bsf os g src) s = .next (s.scanInto os.width g i).advance := by
  subst h
  exact finish_readRm hp _

theorem exec_bsr_of (h : highestSet (s.valueAt os.width (s.place src)) = i) :
    exec (.bsr os g src) s = .next (s.scanInto os.width g i).advance := by
  subst h
  exact finish_readRm hp _

end

/-- Settles O42: the offset is divided by the width, the bit is a digit of the operand, and a scan finds the index it is given by. -/
theorem bitResults : Obligations.BitResults := by
  refine ⟨fun s os => ⟨fun dst k => rfl, fun r g => rfl, fun m g q i hi h => State.bitPlace_mem hi h⟩, ?_, ?_⟩
  · intro s os dst off p i x f one hp
    have hf : f = s.flags.bitFlags s.draws (x.getLsbD i) := by rw [getLsbD_eq_decide]
    rw [hf]
    exact ⟨exec_bt_of hp, finish_bitModify hp _, finish_bitModify hp _, finish_bitModify hp _⟩
  · intro s os g src hp v result
    refine ⟨fun i h hlow => exec_bsf_of hp (lowestSet_eq_some h hlow), fun i h hhigh => exec_bsr_of hp (highestSet_eq_some h hhigh),
      fun hv => ⟨exec_bsf_of hp (i := none) ?_, exec_bsr_of hp (i := none) ?_⟩⟩
    · exact (congrArg lowestSet hv).trans lowestSet_zero
    · exact (congrArg highestSet hv).trans highestSet_zero

end Sys2Proof.Machine
end

section
/-! SUPPORT. Software interrupts, and the return from an interrupt (R540 to R560). -/

namespace Sys2Proof.Machine

/-! ## Software interrupts (R540 to R542) -/

/-- A software interrupt samples the mode before its delivery does; the second sampling finds the same CR0 (R540, R722). -/
theorem State.softInterrupt_of {s : State} {v : BitVec 8} (h : s.deliverOk v s.next = true) :
    s.softInterrupt v = .ok ((s.delivered v s.next).setIntDepth (s.intDepth + 1)) := by
  have hdeliver : s.sampleMode.deliver v s.next = .ok (s.delivered v s.next) := State.deliver_iff.mpr ⟨h, rfl⟩
  refine bind_ok.mpr ⟨_, hdeliver, ?_⟩
  rw [State.delivered_intDepth]

theorem exec_into (s : State) :
    exec .into s = if s.flags.ofl = true then finish (s.softInterrupt 4) else .next s.sampleMode.advance := rfl

/-! ## Interrupt returns (R560) -/

/-- FLAGS loaded from the image that an interrupt return pops (R560). -/
def Flags.loadImage (f : Flags) : (os : Size) → BitVec os.width.bits → Flags
  | .s16, v => f.load16 v
  | .s32, v => f.loadIretd v

/-- The state after an interrupt return from a state in the sampled mode (R560). -/
def State.returned (s : State) (os : Size) : State :=
  let b := s.popped os
  let c := b.popped os
  (((c.popped os).transferred ((b.popValue os).setWidth 16) ((s.popValue os).setWidth 32)).setFlags
    (s.flags.loadImage os (c.popValue os))).setIntDepth (s.intDepth - 1)

@[simp] theorem State.transferred_flags (s : State) (sel : BitVec 16) (off : BitVec 32) : (s.transferred sel off).flags = s.flags :=
  rfl

@[simp] theorem State.transferred_intDepth (s : State) (sel : BitVec 16) (off : BitVec 32) :
    (s.transferred sel off).intDepth = s.intDepth := rfl

@[simp] theorem State.popped_intDepth (s : State) (n : Size) : (s.popped n).intDepth = s.intDepth := s.setSp_intDepth _

@[simp] theorem State.selectorOk_popped (s : State) (n : Size) (r : SegReg) (sel : BitVec 16) :
    (s.popped n).selectorOk r sel = s.selectorOk r sel := s.selectorOk_setSp _ r sel

/-- An interrupt return completes where its three slots are inside memory and CS can take the selector (R560). -/
theorem State.interruptReturn_of {s : State} {os : Size} (h1 : s.sampleMode.popOk os = true)
    (h2 : (s.sampleMode.popped os).popOk os = true) (h3 : ((s.sampleMode.popped os).popped os).popOk os = true)
    (hsel : s.sampleMode.selectorOk .cs (((s.sampleMode.popped os).popValue os).setWidth 16) = true) :
    s.interruptReturn os = .ok (s.sampleMode.returned os) := by
  have hcs : (((s.sampleMode.popped os).popped os).popped os).selectorOk .cs
      (((s.sampleMode.popped os).popValue os).setWidth 16) = true := by simpa using hsel
  have htransfer := State.farTransfer_of (off := (s.sampleMode.popValue os).setWidth 32) hcs
  cases os with
  | s16 | s32 =>
    refine bind_ok.mpr ⟨_, State.pop_of h1, bind_ok.mpr ⟨_, State.pop_of h2, bind_ok.mpr ⟨_, State.pop_of h3, ?_⟩⟩⟩
    simp only [BitVec.setWidth_eq] at htransfer ⊢
    refine bind_ok.mpr ⟨_, htransfer, ?_⟩
    simp [State.returned, State.popped_flags, Flags.loadImage]

/-- Settles O54: the software interrupts are one delivery and a level of nesting; the returns are three pops and a far transfer. -/
theorem interruptResults : Obligations.InterruptResults := by
  refine ⟨fun s => ⟨fun v h => finish_of_ok (State.softInterrupt_of h), fun h => finish_of_ok (State.softInterrupt_of h),
    fun hof h => ?_, fun hof => ?_⟩, fun s os h1 h2 h3 hsel => ?_⟩
  · rw [exec_into, if_pos hof]
    exact finish_of_ok (State.softInterrupt_of h)
  · rw [exec_into, if_neg (ne_true_of_eq_false hof)]
  · have hpred : (if s.intDepth = 0 then 0 else s.intDepth - 1) = s.intDepth - 1 := by split <;> omega
    rw [BitVec.ofNat_toNat] at hsel ⊢
    rw [hpred]
    refine ⟨s.sampleMode.returned os, finish_of_ok (State.interruptReturn_of h1 h2 h3 hsel), rfl, ?_, ?_⟩ <;>
      · rintro rfl
        rfl

end Sys2Proof.Machine
end

section
/-! SUPPORT. The string instructions without repetition: one element, and the steps of its indexes (R582 to R591). -/

namespace Sys2Proof.Machine

/-! ## Registers -/

theorem State.reg_of_regs_eq {s t : State} (h : t.regs = s.regs) (w : Width) (q : Reg) : t.reg w q = s.reg w q :=
  congrArg (fun r : Regs => r.read w q) h

/-- A write of a view leaves the views of the registers that it does not belong to. -/
theorem State.reg_setReg_of_home_ne (s : State) (w x : Width) {q r : Reg} (v : BitVec x.bits) (h : q.home w ≠ r.home x) :
    (s.setReg x r v).reg w q = s.reg w q := by
  have hget := Regs.get_write_of_ne s.regs x r _ v h
  cases w with
  | w8 => exact congrArg (fun y : BitVec 32 => y.extractLsb' (if Reg.byteHigh q then 8 else 0) 8) hget
  | w16 => exact congrArg (BitVec.setWidth 16) hget
  | w32 => exact hget

/-! ## Index registers (R582) -/

/-- What an index register holds after an element: upwards, or downwards if DF is 1, modulo 2^AS. -/
def State.stepped (s : State) (as : Size) (w : Width) (q : Reg) : BitVec as.width.bits :=
  if s.flags.df then s.reg as.width q - BitVec.ofNat as.width.bits w.bytes
  else s.reg as.width q + BitVec.ofNat as.width.bits w.bytes

theorem State.stepIndex_eq (s : State) (as : Size) (w : Width) (q : Reg) :
    s.stepIndex as w q = s.setReg as.width q (s.stepped as w q) := by
  have hbits : as.width.bits ≤ 32 := by cases as <;> decide
  have hback (x : BitVec as.width.bits) : (x.setWidth 32).setWidth as.width.bits = x := by
    rw [BitVec.setWidth_setWidth_of_le _ hbits, BitVec.setWidth_eq]
  have hstep := BitVec.setWidth_ofNat_of_le hbits w.bytes
  unfold State.stepIndex State.stepped State.index
  cases s.flags.df with
  | true =>
    simp only [if_true, BitVec.sub_eq_add_neg, BitVec.setWidth_add _ _ hbits, BitVec.setWidth_neg_of_le hbits, hback, hstep]
  | false =>
    simp only [Bool.false_eq_true, if_false, BitVec.setWidth_add _ _ hbits, hback, hstep]

/-- An index register steps alike from two states that agree on it and on DF. -/
theorem State.stepIndex_of {s t : State} {as : Size} {q : Reg} (w : Width) (hdf : t.flags.df = s.flags.df)
    (hq : t.reg as.width q = s.reg as.width q) : t.stepIndex as w q = t.setReg as.width q (s.stepped as w q) := by
  rw [State.stepIndex_eq, State.stepped, hdf, hq, State.stepped]

/-- MOVS and CMPS step the source index and then the destination index. -/
theorem State.stepBoth_of {s t : State} (as : Size) (w : Width) (hdf : t.flags.df = s.flags.df) (hregs : t.regs = s.regs) :
    (t.stepIndex as w .esi).stepIndex as w .edi
      = (t.setReg as.width .esi (s.stepped as w .esi)).setReg as.width .edi (s.stepped as w .edi) := by
  have hreg := State.reg_of_regs_eq hregs as.width
  rw [State.stepIndex_of w hdf (hreg .esi)]
  exact State.stepIndex_of w hdf ((t.reg_setReg_of_ne as as _ (by decide)).trans (hreg .edi))

/-! ## One element (R584 to R591) -/

theorem State.ioRead_unchanged (s : State) (port : BitVec 16) (w : Width) :
    (s.ioRead port w).2.regs = s.regs ∧ (s.ioRead port w).2.flags = s.flags ∧ (s.ioRead port w).2.params = s.params := by
  cases h : s.deviceOf port with
  | none => rw [State.ioRead_of_none w h]; exact ⟨rfl, rfl, rfl⟩
  | some d => rw [State.ioRead_of_device w h]; exact ⟨rfl, rfl, rfl⟩

theorem State.ioWrite_unchanged (s : State) (port : BitVec 16) (w : Width) (v : BitVec w.bits) :
    (s.ioWrite port w v).regs = s.regs ∧ (s.ioWrite port w v).flags = s.flags := by
  cases h : s.deviceOf port with
  | none => rw [State.ioWrite_of_none v h]; exact ⟨rfl, rfl⟩
  | some d => rw [State.ioWrite_of_device v h]; exact ⟨rfl, rfl⟩

/-- Which addresses are inside memory depends on P_MEM_SIZE only. -/
theorem State.mapped_of_params_eq {s t : State} (h : t.params = s.params) (lin : BitVec 32) (n : Nat) :
    t.mapped lin n = s.mapped lin n := by
  rw [State.mapped, h, State.mapped]

theorem runOnce_of {body : State → Except FaultKind State} {s t : State} (h : body s = .ok t) :
    runOnce body s = .next t.advance := finish_of_ok (bind_ok.mpr ⟨t, h, rfl⟩)

section
variable {s : State} {w : Width} {as : Size} {seg : SegReg}

section
variable (hsrc : s.mapped (s.srcAddr as seg) w.bytes = true)
include hsrc

theorem lodsBody_of : lodsBody w as seg s
    = .ok ((s.setReg w .eax (s.load (s.srcAddr as seg) w)).setReg as.width .esi (s.stepped as w .esi)) := by
  refine bind_ok.mpr ⟨_, State.memRead_of hsrc, congrArg Except.ok (State.stepIndex_of w rfl ?_)⟩
  exact s.reg_setReg_of_home_ne _ w _ (by rw [Reg.home_size, Reg.home_eax]; decide)

theorem outsBody_of : outsBody w as seg s
    = .ok ((s.ioWrite (s.reg .w16 .edx) w (s.load (s.srcAddr as seg) w)).setReg as.width .esi (s.stepped as w .esi)) := by
  obtain ⟨hregs, hflags⟩ := s.ioWrite_unchanged (s.reg .w16 .edx) w (s.load (s.srcAddr as seg) w)
  exact bind_ok.mpr ⟨_, State.memRead_of hsrc,
    congrArg Except.ok (State.stepIndex_of w (congrArg Flags.df hflags) (State.reg_of_regs_eq hregs _ _))⟩

end

section
variable (hdst : s.mapped (s.dstAddr as) w.bytes = true)
include hdst

theorem stosBody_of : stosBody w as s
    = .ok ((s.store (s.dstAddr as) w (s.reg w .eax)).setReg as.width .edi (s.stepped as w .edi)) :=
  bind_ok.mpr ⟨_, State.memWrite_of _ hdst, congrArg Except.ok (State.stepIndex_of w
    (congrArg Flags.df (s.store_flags _ w _)) (State.reg_of_regs_eq (s.store_regs _ w _) _ _))⟩

theorem scasBody_of : scasBody w as s
    = .ok ((s.setFlags (s.flags.subFlags (s.reg w .eax) (s.load (s.dstAddr as) w) false).2).setReg as.width .edi
      (s.stepped as w .edi)) :=
  bind_ok.mpr ⟨_, State.memRead_of hdst, congrArg Except.ok (State.stepIndex_of w rfl rfl)⟩

/-- INS checks its destination before it reads the port, and the port changes no parameter (R590, R175). -/
theorem insBody_of : insBody w as s
    = .ok (((s.ioRead (s.reg .w16 .edx) w).2.store (s.dstAddr as) w (s.ioRead (s.reg .w16 .edx) w).1).setReg as.width .edi
      (s.stepped as w .edi)) := by
  obtain ⟨hregs, hflags, hparams⟩ := s.ioRead_unchanged (s.reg .w16 .edx) w
  rw [insBody, (s.mapped_iff _ _).mp hdst]
  refine bind_ok.mpr ⟨_, State.memWrite_of _ ((State.mapped_of_params_eq hparams _ _).trans hdst),
    congrArg Except.ok (State.stepIndex_of w ?_ (State.reg_of_regs_eq ?_ _ _))⟩
  · rw [State.store_flags, hflags]
  · rw [State.store_regs, hregs]

variable (hsrc : s.mapped (s.srcAddr as seg) w.bytes = true)
include hsrc

theorem movsBody_of : movsBody w as seg s
    = .ok (((s.store (s.dstAddr as) w (s.load (s.srcAddr as seg) w)).setReg as.width .esi (s.stepped as w .esi)).setReg
      as.width .edi (s.stepped as w .edi)) :=
  bind_ok.mpr ⟨_, State.memRead_of hsrc, bind_ok.mpr ⟨_, State.memWrite_of _ hdst, congrArg Except.ok
    (State.stepBoth_of as w (congrArg Flags.df (s.store_flags _ w _)) (s.store_regs _ w _))⟩⟩

theorem cmpsBody_of : cmpsBody w as seg s
    = .ok (((s.setFlags (s.flags.subFlags (s.load (s.srcAddr as seg) w) (s.load (s.dstAddr as) w) false).2).setReg as.width .esi
      (s.stepped as w .esi)).setReg as.width .edi (s.stepped as w .edi)) :=
  bind_ok.mpr ⟨_, State.memRead_of hsrc, bind_ok.mpr ⟨_, State.memRead_of hdst, congrArg Except.ok
    (State.stepBoth_of as w rfl rfl)⟩⟩

end
end

/-- Settles O55: each single form is its body once, and each body is one element and the steps of its indexes. -/
theorem stringOnceResults : Obligations.StringOnceResults := by
  intro s os as seg wide
  cases wide with
  | false | true =>
    exact ⟨fun hsrc hdst => ⟨runOnce_of (movsBody_of hdst hsrc), runOnce_of (cmpsBody_of hdst hsrc)⟩,
      fun hdst => ⟨runOnce_of (stosBody_of hdst), runOnce_of (scasBody_of hdst), runOnce_of (insBody_of hdst)⟩,
      fun hsrc => ⟨runOnce_of (lodsBody_of hsrc), runOnce_of (outsBody_of hsrc)⟩⟩

end Sys2Proof.Machine
end

section
/-! SUPPORT. The repeated string instructions: iterations of the single forms, counted down by CX or ECX (R580, R581). -/

namespace Sys2Proof.Machine

/-! ## The count -/

/-- An instruction that does not write ECX leaves the count. -/
theorem State.Does.count_eq {i : Instr} {s t : State} (h : s.Does i t) (hc : .ecx ∉ i.regsWritten) (as : Size) :
    t.count as = s.count as := by
  have hget : t.regs.get .ecx = s.regs.get .ecx := h.same (.reg .ecx) hc
  cases as <;> simp only [State.count, State.reg, Regs.read, hget]

/-- A count that is not 0 goes down by 1. -/
theorem State.count_decCount_toNat {s : State} {as : Size} {n : Nat} (h : (s.count as).toNat = n + 1) :
    ((s.decCount as).count as).toNat = n := by
  rw [State.count_toNat] at h
  rw [State.count_toNat, State.decCount_eq, State.reg_setReg_self]
  have hone : (1 : BitVec as.width.bits).toNat = 1 := by cases as <;> rfl
  rw [BitVec.toNat_sub_of_le (BitVec.le_def.mpr (by omega)), hone, h, Nat.add_sub_cancel]

/-! ## Repetition of any body -/

/-- Only a computation that faults makes an instruction fault. -/
theorem finish_fault {x : Except FaultKind State} {k : FaultKind} : finish x = .fault (.precise k) ↔ x = .error k := by
  cases x <;> simp [finish]

theorem runOnce_next {body : State → Except FaultKind State} {s t : State} :
    runOnce body s = .next t ↔ ∃ u, body s = .ok u ∧ t = u.advance := by
  rw [runOnce, finish_next, bind_ok]
  simp only [Except.ok.injEq, eq_comm]

theorem runOnce_fault {body : State → Except FaultKind State} {s : State} {k : FaultKind} :
    runOnce body s = .fault (.precise k) ↔ body s = .error k := by
  rw [runOnce, finish_fault]
  cases body s <;> simp [bind, Except.bind]

/-- A body that leaves the count and EIP alone is repeated as R580 and R581 say. -/
theorem runRepeat_repeats {i : Instr} {body : State → Except FaultKind State} (hb : ∀ s, Yields (s.Does i) (body s))
    (hc : .ecx ∉ i.regsWritten) (hm : i.samplesMode = false) (as : Size) (stop : Flags → Bool) :
    Repeats (runOnce body) (runRepeat body as fun t => stop t.flags) as stop := by
  intro s
  have hsucc (hne : s.count as ≠ 0) : ∃ n, (s.count as).toNat = n + 1 :=
    Nat.exists_eq_add_one_of_ne_zero fun h0 => hne (BitVec.eq_of_toNat_eq h0)
  refine ⟨fun h0 => ?_, fun t hne honce => ?_, fun k hne honce => ?_⟩
  · rw [runRepeat, h0]
    rfl
  · obtain ⟨n, hn⟩ := hsucc hne
    obtain ⟨u, hu, rfl⟩ := runOnce_next.mp honce
    have hdoes := hb s u hu
    have heip : u.eip = s.eip := hdoes.same .eip (ne_true_of_eq_false hm)
    have hback : u.advance.setEip s.eip = u := by rw [← heip]; rfl
    have hrest : ((u.decCount as).count as).toNat = n :=
      State.count_decCount_toNat ((congrArg BitVec.toNat (hdoes.count_eq hc as)).trans hn)
    rw [hback, runRepeat, hn, runRepeat, hrest, repeatLoop, hu]
    rfl
  · obtain ⟨n, hn⟩ := hsucc hne
    rw [runRepeat, hn, repeatLoop, runOnce_fault.mp honce]

/-! ## The instructions -/

/-- Settles O56: no body of a string instruction writes the count or EIP. -/
theorem stringRepetition : Obligations.StringRepetition := by
  intro os as seg
  have movs (w : Width) := runRepeat_repeats (i := .movsb as seg false)
    (fun s => movsBody_does w as seg s (List.mem_cons_of_mem _ List.mem_cons_self) List.mem_cons_self) nofun rfl as fun _ => false
  have stos (w : Width) := runRepeat_repeats (i := .stosb as false)
    (fun s => stosBody_does w as s List.mem_cons_self) nofun rfl as fun _ => false
  have lods (w : Width) := runRepeat_repeats (i := .lodsb as seg false)
    (fun s => lodsBody_does w as seg s (List.mem_cons_of_mem _ List.mem_cons_self) List.mem_cons_self) nofun rfl as fun _ => false
  have ins (w : Width) := runRepeat_repeats (i := .insb as false)
    (fun s => insBody_does w as s List.mem_cons_self rfl) nofun rfl as fun _ => false
  have outs (w : Width) := runRepeat_repeats (i := .outsb as seg false)
    (fun s => outsBody_does w as seg s List.mem_cons_self rfl) nofun rfl as fun _ => false
  have cmps (w : Width) := runRepeat_repeats (i := .cmpsb as seg .once)
    (fun s => cmpsBody_does w as seg s (List.mem_cons_of_mem _ List.mem_cons_self) List.mem_cons_self rfl) nofun rfl as
  have scas (w : Width) := runRepeat_repeats (i := .scasb as .once)
    (fun s => scasBody_does w as s List.mem_cons_self rfl) nofun rfl as
  exact ⟨movs .w8, movs os.width, stos .w8, stos os.width, lods .w8, lods os.width, ins .w8, ins os.width, outs .w8, outs os.width,
    cmps .w8 fun f => !f.zf, cmps .w8 fun f => f.zf, cmps os.width fun f => !f.zf, cmps os.width fun f => f.zf,
    scas .w8 fun f => !f.zf, scas .w8 fun f => f.zf, scas os.width fun f => !f.zf, scas os.width fun f => f.zf⟩

end Sys2Proof.Machine
end

section
/-! SUPPORT. REP STOS: every element ends with the accumulator in it, since two elements are the same bytes or have no byte in common
(R580, R582, R586). -/

namespace Sys2Proof.Machine

/-! ## Where the elements are -/

theorem Width.bytes_dvd_size (as : Size) (w : Width) : w.bytes ∣ 2 ^ as.width.bits := by cases w <;> cases as <;> decide

section
variable (s : State) (as : Size) (w : Width)

theorem State.index_toNat (q : Reg) : (s.index as q).toNat = (s.reg as.width q).toNat :=
  BitVec.toNat_setWidth_of_le (by cases as <;> decide)

/-- What an element adds to an index register, modulo 2^AS. -/
def State.stride : Nat := if s.flags.df then 2 ^ as.width.bits - w.bytes else w.bytes

theorem State.bytes_dvd_stride : w.bytes ∣ s.stride as w := by
  unfold State.stride
  split
  · exact Nat.dvd_sub (Width.bytes_dvd_size as w) (Nat.dvd_refl _)
  · exact Nat.dvd_refl _

theorem State.stepped_toNat (q : Reg) :
    (s.stepped as w q).toNat = ((s.index as q).toNat + s.stride as w) % 2 ^ as.width.bits := by
  have hbytes : w.bytes % 2 ^ as.width.bits = w.bytes := by cases w <;> cases as <;> rfl
  rw [State.index_toNat, State.stepped, State.stride]
  cases s.flags.df with
  | true => simp only [if_true, BitVec.toNat_sub', BitVec.toNat_ofNat, hbytes]
  | false => simp only [Bool.false_eq_true, if_false, BitVec.toNat_add, BitVec.toNat_ofNat, hbytes]

/-- Offsets that agree modulo a divisor of 2^32 have linear addresses that agree modulo it. -/
theorem State.linear_modEq {b : Nat} (hb : b ∣ 2 ^ 32) (r : SegReg) {x y : BitVec 32} (h : x.toNat ≡ y.toNat [MOD b]) :
    (s.linear r x).toNat ≡ (s.linear r y).toNat [MOD b] := by
  have hadd (base : BitVec 32) : (base + x).toNat ≡ (base + y).toNat [MOD b] := by
    rw [BitVec.toNat_add, BitVec.toNat_add, Nat.ModEq, Nat.mod_mod_of_dvd _ hb, Nat.mod_mod_of_dvd _ hb]
    exact h.add_left _
  unfold State.linear
  cases s.mode <;> exact hadd _

/-- The elements lie whole elements apart, also across the end of the index. -/
theorem State.dstAt_modEq (j : Nat) : (s.dstAt as w j).toNat ≡ (s.dstAt as w 0).toNat [MOD w.bytes] := by
  induction j generalizing s with
  | zero => rfl
  | succ j ih =>
    have hindex : ((s.stepIndex as w .edi).index as .edi).toNat ≡ (s.index as .edi).toNat [MOD w.bytes] := by
      rw [State.index_toNat, State.stepIndex_eq, State.reg_setReg_self, State.stepped_toNat, Nat.ModEq,
        Nat.mod_mod_of_dvd _ (Width.bytes_dvd_size as w)]
      exact (Nat.ModEq.refl _).add (Nat.modEq_zero_iff_dvd.mpr (s.bytes_dvd_stride as w))
    rw [← State.dstAt_stepIndex]
    refine (ih (s.stepIndex as w .edi)).trans ?_
    rw [← State.dstAddr_eq, ← State.dstAddr_eq]
    exact s.linear_modEq (Width.bytes_dvd_size .s32 w) .es hindex

end

/-- Elements that lie whole elements apart and have a byte in common are the same. -/
theorem eq_of_common_byte {w : Width} {a b : BitVec 32} (h : a.toNat ≡ b.toNat [MOD w.bytes]) {k m : Nat} (hk : k < w.bytes)
    (hm : m < w.bytes) (hbyte : a + BitVec.ofNat 32 k = b + BitVec.ofNat 32 m) : a = b := by
  have hsum : a.toNat + k ≡ b.toNat + m [MOD 2 ^ 32] := by
    simpa only [Nat.ModEq, BitVec.toNat_add, BitVec.toNat_ofNat, Nat.add_mod_mod] using congrArg BitVec.toNat hbyte
  have hkm : k = m := (h.add_left_cancel (hsum.of_dvd (Width.bytes_dvd_size .s32 w))).eq_of_lt_of_lt hk hm
  rw [hkm] at hbyte
  exact add_right_cancel hbyte

/-! ## One iteration -/

/-- The state after one iteration of REP STOS (R580, R586). -/
def State.stosNext (s : State) (as : Size) (w : Width) : State :=
  ((s.store (s.dstAddr as) w (s.reg w .eax)).setReg as.width .edi (s.stepped as w .edi)).decCount as

section
variable {s : State} {as : Size} {w : Width}

theorem stosBody_of_dstAt (h : s.mapped (s.dstAt as w 0) w.bytes = true) : stosBody w as s
    = .ok ((s.store (s.dstAddr as) w (s.reg w .eax)).setReg as.width .edi (s.stepped as w .edi)) :=
  stosBody_of ((s.dstAddr_eq as w).symm ▸ h)

theorem State.stosNext_stores (h : s.mapped (s.dstAt as w 0) w.bytes = true) : s.StoresElement as w (s.stosNext as w) :=
  (stosBody_stores w as s _ (stosBody_of_dstAt h)).decCount

theorem State.stosNext_count {n : Nat} (h : (s.count as).toNat = n + 1) : ((s.stosNext as w).count as).toNat = n := by
  refine State.count_decCount_toNat (Eq.trans ?_ h)
  rw [State.count_toNat, State.count_toNat, State.reg_setReg_of_ne _ as as _ (by decide),
    State.reg_of_regs_eq (s.store_regs _ w _)]

variable (s as w)

theorem State.stosNext_index :
    ((s.stosNext as w).index as .edi).toNat = ((s.index as .edi).toNat + s.stride as w) % 2 ^ as.width.bits := by
  rw [State.index_toNat, State.stosNext, State.decCount, State.reg_setReg_of_ne _ as as _ (by decide), State.reg_setReg_self,
    State.stepped_toNat]

theorem State.stosNext_stride : (s.stosNext as w).stride as w = s.stride as w :=
  congrArg (fun f : Flags => if f.df then 2 ^ as.width.bits - w.bytes else w.bytes) (s.store_flags _ w _)

theorem State.stosNext_acc : (s.stosNext as w).reg w .eax = s.reg w .eax := by
  rw [State.stosNext, State.decCount, State.reg_setReg_of_home_ne, State.reg_setReg_of_home_ne,
    State.reg_of_regs_eq (s.store_regs _ w _)] <;>
    · rw [Reg.home_size, Reg.home_eax]
      decide

theorem State.stosNext_mapped (lin : BitVec 32) (n : Nat) : (s.stosNext as w).mapped lin n = s.mapped lin n :=
  State.mapped_of_params_eq (s.store_params _ w _) lin n

theorem State.stosNext_load : (s.stosNext as w).load (s.dstAt as w 0) w = s.reg w .eax := by
  rw [← State.dstAddr_eq]
  exact s.load_store (s.dstAddr as) w _

end

/-! ## All iterations -/

/-- From `s` to `t`, REP STOS has stored n elements: the count is 0, the index is past them, and they hold the accumulator. -/
structure State.Fills (as : Size) (w : Width) (n : Nat) (s t : State) : Prop where
  count : t.count as = 0
  index : (t.index as .edi).toNat = ((s.index as .edi).toNat + s.stride as w * n) % 2 ^ as.width.bits
  filled : ∀ j < n, t.load (s.dstAt as w j) w = s.reg w .eax

section
variable {s t : State} {as : Size} {w : Width} {n : Nat}

theorem State.Fills.zero (hcount : (s.count as).toNat = 0) : s.Fills as w 0 s.advance := by
  refine ⟨BitVec.eq_of_toNat_eq hcount, ?_, nofun⟩
  have hlt : (s.index as .edi).toNat < 2 ^ as.width.bits := s.index_toNat as .edi ▸ (s.reg as.width .edi).isLt
  exact (Nat.mod_eq_of_lt hlt).symm

/-- The first element keeps the accumulator: a later element either is the first once more, or has no byte of it. -/
theorem State.Fills.load_first (h0 : s.mapped (s.dstAt as w 0) w.bytes = true) (h : (s.stosNext as w).Fills as w n t)
    (hrest : (s.stosNext as w).Stores ((s.stosNext as w).nextElements as w n) t) :
    t.load (s.dstAt as w 0) w = s.reg w .eax := by
  by_cases hagain : ∃ j < n, (s.stosNext as w).dstAt as w j = s.dstAt as w 0
  · obtain ⟨j, hj, hsame⟩ := hagain
    rw [← hsame, h.filled j hj, State.stosNext_acc]
  · refine (hrest.load_eq fun k hk p hp m hm hbyte => hagain ?_).trans (s.stosNext_load as w)
    obtain ⟨j, hj, rfl⟩ := List.mem_map.mp hp
    have hapart : (s.dstAt as w 0).toNat ≡ ((s.stosNext as w).dstAt as w j).toNat [MOD w.bytes] := by
      rw [(State.stosNext_stores h0).dst]
      exact (s.dstAt_modEq as w (j + 1)).symm
    exact ⟨j, List.mem_range.mp hj, (eq_of_common_byte hapart hk hm hbyte).symm⟩

/-- One element, and then n more. -/
theorem State.Fills.succ (h0 : s.mapped (s.dstAt as w 0) w.bytes = true) (h : (s.stosNext as w).Fills as w n t)
    (hrest : (s.stosNext as w).Stores ((s.stosNext as w).nextElements as w n) t) : s.Fills as w (n + 1) t := by
  refine ⟨h.count, ?_, fun j hj => ?_⟩
  · rw [h.index, State.stosNext_index, State.stosNext_stride, Nat.mod_add_mod, Nat.add_assoc, Nat.mul_succ,
      Nat.add_comm (s.stride as w)]
  · cases j with
    | zero => exact h.load_first h0 hrest
    | succ j => rw [← (State.stosNext_stores h0).dst, h.filled j (Nat.lt_of_succ_lt_succ hj), State.stosNext_acc]

theorem repeatLoop_stos_fills (hcount : (s.count as).toNat = n) (hmapped : ∀ j < n, s.mapped (s.dstAt as w j) w.bytes = true) :
    ∃ t, repeatLoop (stosBody w as) as (fun _ => false) n s = .next t ∧ s.Fills as w n t := by
  induction n generalizing s with
  | zero => exact ⟨s.advance, rfl, .zero hcount⟩
  | succ n ih =>
    have h0 := hmapped 0 (Nat.succ_pos n)
    have hnext (j : Nat) (hj : j < n) : (s.stosNext as w).mapped ((s.stosNext as w).dstAt as w j) w.bytes = true := by
      rw [State.stosNext_mapped, (State.stosNext_stores h0).dst]
      exact hmapped (j + 1) (Nat.succ_lt_succ hj)
    obtain ⟨t, ht, hfills⟩ := ih (State.stosNext_count hcount) hnext
    refine ⟨t, ?_, hfills.succ h0 (repeatLoop_storesElements (stosBody_stores w as) _ n t ht)⟩
    rw [repeatLoop, stosBody_of_dstAt h0]
    exact ht

end

/-- Settles O57: the count, the index and the elements by induction on the count; EIP and the other bytes by the frames. -/
theorem repeatedStoreFills : Obligations.RepeatedStoreFills := by
  intro s as os wide w n hmapped
  obtain ⟨t, ht, hcount, hindex, hfilled⟩ := repeatLoop_stos_fills (s := s) (as := as) (w := w) rfl hmapped
  have hpast : (t.index as .edi).toNat = (if s.flags.df then (s.index as .edi).toNat + (2 ^ as.width.bits - w.bytes) * n
      else (s.index as .edi).toNat + w.bytes * n) % 2 ^ as.width.bits := by
    rw [hindex, State.stride]
    cases s.flags.df <;> rfl
  cases wide with
  | false =>
    have hexec : exec (.stosb as true) s = .next t := ht
    exact ⟨t, hexec, hcount, exec_eip hexec rfl rfl, hpast, hfilled, exec_stores _ s t hexec⟩
  | true =>
    have hexec : exec (.stosw os as true) s = .next t := ht
    exact ⟨t, hexec, hcount, exec_eip hexec rfl rfl, hpast, hfilled, exec_stores _ s t hexec⟩

end Sys2Proof.Machine
end

section
/-! SUPPORT. What a delivery leaves: its three pushes as one row, and CS:EIP from the IVT entry (R722, R723). -/

namespace Sys2Proof.Machine

/-- The values that a delivery pushes, the first one first: FLAGS[15:0], CS and the return offset (R722). -/
def State.frameValues (s : State) (ret : BitVec 32) : List (BitVec 16) :=
  [s.flags.toWord.setWidth 16, s.segs.cs.sel, ret.setWidth 16]

/-- An entry of the IVT is four bytes (R150). -/
theorem ivtEntry_eq (v : BitVec 8) : ivtEntry v = BitVec.ofNat 32 (4 * v.toNat) := by
  apply BitVec.eq_of_toNat_eq
  simp [ivtEntry, Nat.shiftLeft_eq, Nat.mul_comm]

/-- Whatever the mode, the segment register holds the selector that is loaded (R131, R132). -/
@[simp] theorem State.segmentFor_sel (s : State) (r : SegReg) (v : BitVec 16) : (s.segmentFor r v).sel = v := by
  unfold State.segmentFor
  cases s.mode <;> rfl

section
variable (s : State) (v : BitVec 8) (ret : BitVec 32)

/-- The frame of a delivery is a row of three pushes in the sampled mode (R722). -/
theorem State.frameBuilt_eq_pushedAll : s.frameBuilt ret
    = (s.sampleMode.pushedAll .s16 (s.frameValues ret)).setFlags { s.flags with ifl := false, tf := false, ac := false } := by
  simp [State.frameBuilt, State.pushedAll, State.frameValues]

theorem State.delivered_mem : (s.delivered v ret).mem = (s.sampleMode.pushedAll .s16 (s.frameValues ret)).mem :=
  (congrArg State.mem (s.frameBuilt_eq_pushedAll ret) :)

/-- The load of CS:EIP leaves the flags as the frame has them (R722). -/
theorem State.delivered_flags : (s.delivered v ret).flags = { s.flags with ifl := false, tf := false, ac := false } :=
  congrArg State.flags (s.frameBuilt_eq_pushedAll ret)

/-- The mode is the sampled one: no push and no load of a segment changes it (R722). -/
theorem State.delivered_mode : (s.delivered v ret).mode = if s.cr.cr0.getLsbD 0 then .prot else .real :=
  (congrArg State.mode (s.frameBuilt_eq_pushedAll ret)).trans (s.sampleMode.pushedAll_unchanged _ _ State.mode fun t x =>
    t.pushed_mode _ x)

/-- The stack pointer goes down by the three slots. -/
theorem State.delivered_sp : (s.delivered v ret).sp = truncTo s.sampleMode.sw (s.sampleMode.sp - 6) :=
  (congrArg State.sp (s.frameBuilt_eq_pushedAll ret)).trans (s.sampleMode.pushedAll_sp .s16 (s.frameValues ret))

/-- What the delivery read in the IVT entry is what memory holds after it: it stores nothing after its pushes (R722). -/
theorem State.load_delivered (lin : BitVec 32) (w : Width) : (s.delivered v ret).load lin w = (s.frameBuilt ret).load lin w :=
  State.load_of_mem_eq rfl lin w

theorem State.delivered_cs_sel : (s.delivered v ret).segs.cs.sel = (s.delivered v ret).load (ivtEntry v + 2) .w16 :=
  (State.segmentFor_sel _ _ _).trans (s.load_delivered v ret _ .w16).symm

theorem State.delivered_eip : (s.delivered v ret).eip = ((s.delivered v ret).load (ivtEntry v) .w16).setWidth 32 :=
  congrArg (BitVec.setWidth 32) (s.load_delivered v ret _ .w16).symm

variable {s v ret}

/-- Each slot holds its value of the frame. -/
theorem State.load_delivered_slot {j : Nat} {x : BitVec 16} (hj : (s.frameValues ret)[j]? = some x) :
    (s.delivered v ret).load (s.sampleMode.slot .s16 (j + 1)) .w16 = x :=
  (State.load_of_mem_eq (s.delivered_mem v ret) _ _).trans
    (s.sampleMode.load_pushedAll (n := .s16) (vs := s.frameValues ret) (Nat.le_of_ble_eq_true rfl) hj)

end

/-- Settles O12: the slots are those of a row of pushes, and nothing after the pushes changes memory. -/
theorem deliveryEffect : Obligations.DeliveryEffect := by
  intro s v ret hok
  have hsel : BitVec.ofNat 32 (4 * v.toNat + 2) = ivtEntry v + 2 := by
    rw [ivtEntry_eq]
    exact BitVec.ofNat_add _ 2
  rw [hsel, ← ivtEntry_eq]
  have hslot {j : Nat} {x : BitVec 16} (hj : (s.frameValues ret)[j]? = some x) := State.load_delivered_slot (v := v) hj
  exact ⟨State.deliver_iff.mpr ⟨hok, rfl⟩, s.delivered_mode v ret, hslot rfl, hslot rfl, hslot rfl, s.delivered_sp v ret,
    s.delivered_flags v ret, s.delivered_cs_sel v ret, s.delivered_eip v ret⟩

end Sys2Proof.Machine
end
